-- ==== Sys2Proof/Word.lean ====
section
/-! DEFINITION. The widths of the values that cross the block's interfaces (00_scope.md R14, 30_encoding.md R70). -/

namespace Sys2Proof

/-- A command word: 32 bits (R70). It crosses the command-source interface as one value (R51). -/
abbrev Word := BitVec 32

/-- A pitch: a frequency in Hz, 16 bits unsigned (R14, R71). -/
abbrev Pitch := BitVec 16

/-- A duration in ticks: 13 bits unsigned (R14, R71). -/
abbrev Dur := BitVec 13

/-- The 29 bits below the opcode, `w[28:0]` (R72, R73). -/
abbrev Payload := BitVec 29

end Sys2Proof
end

