-- ==== Sys2Proof/Config.lean ====
section
/-! DEFINITION. The block's configuration (00_scope.md R7 to R13, 10_state.md R39) and the model's free values.

A configuration is an argument of the model: State carries one, no rule writes it, and every statement over all
states holds for every legal value of every parameter. The free values are opaque: no proof can see one. -/

namespace Sys2Proof

/-- The confirmed state of the debounce filter: 1 is Asserted, 0 is Deasserted (R22). -/
inductive DbState where
  | asserted
  | deasserted
  deriving DecidableEq, Repr

/-- What DISARM does to the playback position (R12). -/
inductive RearmPolicy where
  /-- Keep `src_pos` and `ticks_remaining`. -/
  | resume
  /-- Return the command source to its first command and clear `ticks_remaining`. -/
  | restart
  deriving DecidableEq, Repr

/-- The control state CFG0 to CFG5 of rule R39. -/
structure Config where
  /-- CFG0 `THRESHOLD`: consecutive contrary samples that confirm a transition (R7). -/
  threshold : BitVec 8
  /-- CFG1 `INITIAL_STATE` (R8). -/
  initialState : DbState
  /-- CFG2 `ASSERTED_LEVEL`: the raw level that reads as asserted (R9). -/
  assertedLevel : Bool
  /-- CFG3 `REARM_POLICY` (R12). -/
  rearmPolicy : RearmPolicy
  /-- CFG4 `SONG`: the command source repeats this list cyclically (R11). -/
  song : List Word
  /-- CFG5 `TICK_PERIOD`, in microseconds; no rule reads it (R13). -/
  tickPeriodUs : Nat
  deriving DecidableEq, Repr

/-- FREE VALUE (log 1, DESIGN CHOICE): the first word of the SONG that is fitted at reset. The spec makes SONG a
parameter with no default (R11), so the model names no word. -/
opaque Config.songFirst : Word

/-- FREE VALUE (log 1, DESIGN CHOICE): the words of that SONG after its first. -/
opaque Config.songRest : List Word

/-- FREE VALUE (log 5): the level the digital input reads when the dispatcher takes a TICK that no waiting turn
scheduled. R38: "a free input of that step, drawn by the environment under no law". -/
opaque Config.inputLevel : Nat → Bool

/-- The default configuration with a given SONG (R7, R8, R9, R12, R13). -/
def Config.standardWith (song : List Word) : Config where
  threshold := 30
  initialState := .asserted
  assertedLevel := true
  rearmPolicy := .resume
  song := song
  tickPeriodUs := 1000

/-- The configuration right after reset: the defaults, and a SONG of which only its being non-empty is known. -/
def Config.standard : Config := Config.standardWith (Config.songFirst :: Config.songRest)

end Sys2Proof
end

