-- ==== Sys2Proof/Syntax.lean ====
section
/-! DEFINITION. The playback commands (30_encoding.md R72) and the reserved rows of the opcode table (R74). -/

namespace Sys2Proof

/-- One constructor per row of spec/opcode_table.json. -/
inductive Instr where
  /-- `WAIT`, op 0b000, fine (R113). -/
  | wait
  /-- `BEGIN_NOTE pitch`, op 0b001, fine (R114). -/
  | beginNote (pitch : Pitch)
  /-- `END_NOTE`, op 0b010, fine (R115). -/
  | endNote
  /-- `NOTE pitch, dur`, op 0b011, coarse (R116). -/
  | note (pitch : Pitch) (dur : Dur)
  /-- `REST dur`, op 0b100, coarse (R117). -/
  | rest (dur : Dur)
  /-- Reserved opcode 0b101 with its other 29 bits: every such word is illegal (R74, R118). -/
  | reserved101 (payload : Payload)
  /-- Reserved opcode 0b110 (R74, R118). -/
  | reserved110 (payload : Payload)
  /-- Reserved opcode 0b111 (R74, R118). -/
  | reserved111 (payload : Payload)
  deriving DecidableEq, Repr

/-- One of the five commands of R72, as against a reserved row. -/
def Instr.isCommand : Instr → Bool
  | .wait => true
  | .beginNote _ => true
  | .endNote => true
  | .note _ _ => true
  | .rest _ => true
  | .reserved101 _ => false
  | .reserved110 _ => false
  | .reserved111 _ => false

/-- The opcode `op` of R72. -/
def Instr.opcode : Instr → BitVec 3
  | .wait => 0b000#3
  | .beginNote _ => 0b001#3
  | .endNote => 0b010#3
  | .note _ _ => 0b011#3
  | .rest _ => 0b100#3
  | .reserved101 _ => 0b101#3
  | .reserved110 _ => 0b110#3
  | .reserved111 _ => 0b111#3

end Sys2Proof
end

