-- ==== Sys2Proof/Machine/State.lean ====
section
/-! DEFINITION. The state of the block (10_state.md), the events and actions of a run (00_scope.md R17, R18), the
reasons a step can stop, and the state after reset. -/

namespace Sys2Proof.Machine

/-- `fault_code`, 2 bits (10_state.md R34, 60_exceptions.md R160). -/
inductive FaultCode where
  /-- 0: no fault. -/
  | none
  /-- 1: `HARD_FAULT` (R161). -/
  | hardFault
  /-- 2: `UNEXPECTED_INTERRUPT` (R162). -/
  | unexpectedInterrupt
  /-- 3: `ILLEGAL_COMMAND` (R163). -/
  | illegalCommand
  deriving DecidableEq, Repr

/-- The ButtonEvent of a debounce step, `event_out` (10_state.md R37). The fourth 2-bit value is never produced, so
it has no constructor. -/
inductive ButtonEvent where
  | nothing
  | pressed
  | released
  deriving DecidableEq, Repr

/-- The action alphabet of R18. -/
inductive Action where
  | ack
  | setLed (b : Bool)
  | play (f : Pitch)
  | silence
  | mute
  | unmute
  | pull (w : Word)
  | restart
  deriving DecidableEq, Repr

/-- The two kinds of FATAL (R161, R162). -/
inductive FatalKind where
  | hardFault
  | unexpectedInterrupt
  deriving DecidableEq, Repr

/-- The events of R17, each the turn of one agent. `tick raw` is the dispatcher's turn with the digital input reading
`raw` (R141). -/
inductive Event where
  | reset
  | enableTicks
  | tickFire
  | tick (raw : Bool)
  | fatal (kind : FatalKind)
  deriving DecidableEq, Repr

/-- The agents that take steps (R16). The command source and the foreground take none. -/
inductive Agent where
  | dispatcher
  | environment
  | host
  deriving DecidableEq, Repr

/-- Everything the spec gives the machine, the configuration of the run, the outputs of the latest step, and the
model's own schedule of turns. -/
structure State where
  /-- The configuration CFG0 to CFG5 (R39); no step writes it. -/
  cfg : Config
  /-- `db_state` (R22). -/
  dbState : DbState
  /-- `db_count` (R23). -/
  dbCount : BitVec 8
  /-- `led`, and `armed`, which is the same storage (R24, R25). -/
  led : Bool
  /-- `ticks_remaining` (R26). -/
  ticksRemaining : Dur
  /-- `tone_freq` (R27). -/
  toneFreq : Pitch
  /-- `tone_sounding` (R28). -/
  toneSounding : Bool
  /-- `tone_muted` (R29). -/
  toneMuted : Bool
  /-- `tick_pending` (R31). -/
  tickPending : Bool
  /-- `ticks_enabled` (R32). -/
  ticksEnabled : Bool
  /-- `halted` (R33). -/
  halted : Bool
  /-- `fault_code` (R34). -/
  faultCode : FaultCode
  /-- `fault_word` (R35). -/
  faultWord : Word
  /-- `src_pos` (R36). -/
  srcPos : Nat
  /-- Output of the latest step: its action trace in order (R18; log 8). -/
  trace : List Action
  /-- Output of the latest step: `event_out`, present when that step was a TICK (R37; log 8). -/
  eventOut : Option ButtonEvent
  /-- The model's own: the agents' turns that are waiting, oldest first (R16, R17; log 3). -/
  inbox : List Event
  /-- The model's own: the counter at which the free input level is read (R38; log 5). -/
  freeIndex : Nat
  deriving DecidableEq, Repr

/-- The faults a step can answer. -/
inductive Fault where
  /-- Raised by `step` when the block is halted with this fault code and no turn is waiting, so nothing can lift the
  halt: R165, "a model treats it as a fault outcome". SAFE: the block would hold its state for ever (log 7). -/
  | halted (code : FaultCode)
  deriving DecidableEq, Repr

/-- The refusals a step can answer. -/
inductive Refusal where
  /-- An instruction whose meaning is not written yet, by its mnemonic. No arm of `exec` raises it. SAFE. -/
  | notModelled (mnemonic : String)
  /-- Raised by `step` when the configuration is outside its legal values: R39, "a model has no run for it".
  SAFE (log 9). -/
  | illegalConfiguration
  /-- Raised by `step` when `db_count >= THRESHOLD`: R40, "outside the model's state type". SAFE (log 10). -/
  | dbCountOutOfRange
  /-- Raised by `advance` when it must pull and `src_pos` is no index of SONG: unreachable by R40 invariant 6, and
  R112 gives no word. SAFE (log 10). -/
  | srcPosOutOfRange
  deriving DecidableEq, Repr

/-- What a step of this machine answers. -/
abbrev Result := Host.Outcome State Fault Refusal

/-- Every reset value of R41, under a configuration and with turns waiting. -/
def State.boot (cfg : Config) (inbox : List Event) : State where
  cfg := cfg
  dbState := cfg.initialState
  dbCount := 0
  led := false
  ticksRemaining := 0
  toneFreq := 0
  toneSounding := false
  toneMuted := true
  tickPending := false
  ticksEnabled := false
  halted := false
  faultCode := .none
  faultWord := 0
  srcPos := 0
  trace := []
  eventOut := none
  inbox := inbox
  freeIndex := 0

/-- The machine right after reset (R41, R180, R181), with no turn waiting. -/
def State.reset : State := State.boot Config.standard []

end Sys2Proof.Machine
end

