-- ==== Sys2Proof/Machine/Flags.lean ====
section
/-! DEFINITION. Everything the spec computes from the stored bits: the derived flags, the conditions the rules test,
and the codes of the named values. -/

namespace Sys2Proof.Machine

/-- `armed == led` at every point (R25). -/
def State.armed (s : State) : Bool := s.led

/-- `audible = tone_sounding and not tone_muted` (R30). -/
def State.audible (s : State) : Bool := s.toneSounding && !s.toneMuted

/-- What the tone output sounds: `tone_freq` while audible, nothing otherwise (R30). -/
def State.heard (s : State) : Option Pitch := if s.audible then some s.toneFreq else none

/-- When a TICK step can be taken (R140). -/
def State.tickEnabled (s : State) : Bool := s.ticksEnabled && s.tickPending && !s.halted

/-- The raw level that reads as the confirmed state: `ASSERTED_LEVEL`, or `1 - ASSERTED_LEVEL` (R9, R91). -/
def confirmedLevel (cfg : Config) (d : DbState) : Bool :=
  match d with
  | .asserted => cfg.assertedLevel
  | .deasserted => !cfg.assertedLevel

/-- The other confirmed state. -/
def flipped : DbState → DbState
  | .asserted => .deasserted
  | .deasserted => .asserted

/-- The event of leaving a confirmed state (R93). -/
def leaveEvent : DbState → ButtonEvent
  | .asserted => .pressed
  | .deasserted => .released

/-- The legal values of R39. THRESHOLD is 8 bits wide, so only 0 is out of its range. -/
def configLegal (cfg : Config) : Bool :=
  cfg.threshold != 0 && !cfg.song.isEmpty && decide (0 < cfg.tickPeriodUs)

/-- `db_count < THRESHOLD` (R40 invariant 1), unsigned. -/
def State.dbCountInRange (s : State) : Bool := decide (s.dbCount < s.cfg.threshold)

/-- `db_state` as its bit: 1 is Asserted (R22). -/
def dbStateBit : DbState → Bool
  | .asserted => true
  | .deasserted => false

/-- `event_out` as its 2 bits (R37). -/
def buttonEventBits : ButtonEvent → BitVec 2
  | .nothing => 0
  | .pressed => 1
  | .released => 2

/-- `fault_code` as its 2 bits (R160). -/
def faultCodeBits : FaultCode → BitVec 2
  | .none => 0
  | .hardFault => 1
  | .unexpectedInterrupt => 2
  | .illegalCommand => 3

/-- The fault code of a FATAL event (R161, R162). -/
def fatalCode : FatalKind → FaultCode
  | .hardFault => .hardFault
  | .unexpectedInterrupt => .unexpectedInterrupt

/-- The agent whose step an event is (R16). -/
def eventAgent : Event → Agent
  | .reset => .host
  | .enableTicks => .host
  | .tickFire => .environment
  | .tick _ => .dispatcher
  | .fatal _ => .environment

/-- The place of an event in the order of true coincidences (R168). -/
def eventPriority : Event → Nat
  | .reset => 1
  | .fatal .hardFault => 2
  | .fatal .unexpectedInterrupt => 3
  | .tick _ => 4
  | .tickFire => 5
  | .enableTicks => 6

/-- A tone action: `play`, `silence`, `mute` or `unmute` (R124). -/
def isToneAction : Action → Bool
  | .play _ => true
  | .silence => true
  | .mute => true
  | .unmute => true
  | .ack => false
  | .setLed _ => false
  | .pull _ => false
  | .restart => false

/-- A word taken from the command source. -/
def isPull : Action → Bool
  | .pull _ => true
  | .ack => false
  | .setLed _ => false
  | .play _ => false
  | .silence => false
  | .mute => false
  | .unmute => false
  | .restart => false

end Sys2Proof.Machine
end

