-- ==== Sys2Proof/Machine/Ops.lean ====
section
/-! DEFINITION. The accesses of 20_memory.md R53, one named operation each, fault entry (60_exceptions.md R164), the
only way out of a fault (70_reset_and_hazards.md R180), and the schedule of turns.

The block has no memory and no register file (R20, R50): these operations are all the reads and writes there are.
An access that the spec makes an action appends it to the trace, whether or not it changes a value (R15, D30). -/

namespace Sys2Proof.Machine

/-- `emit A` (R15). -/
def State.emit (s : State) (a : Action) : State := { s with trace := s.trace ++ [a] }

/-- Acknowledge: `tick_pending <- 0; emit ack` (R140). -/
def State.ackTick (s : State) : State :=
  { s with tickPending := false, trace := s.trace ++ [.ack] }

/-- `led <- b; emit set_led(b)` (R143). -/
def State.setLed (s : State) (b : Bool) : State :=
  { s with led := b, trace := s.trace ++ [.setLed b] }

/-- `play(f)`: set the frequency and start the sound (R27, R28, R114). -/
def State.play (s : State) (f : Pitch) : State :=
  { s with toneFreq := f, toneSounding := true, trace := s.trace ++ [.play f] }

/-- `silence()`: stop the sound and keep the frequency (R28, R115). -/
def State.silence (s : State) : State :=
  { s with toneSounding := false, trace := s.trace ++ [.silence] }

/-- `mute()` (R29, R143). -/
def State.mute (s : State) : State := { s with toneMuted := true, trace := s.trace ++ [.mute] }

/-- `unmute()` (R29, R143). -/
def State.unmute (s : State) : State := { s with toneMuted := false, trace := s.trace ++ [.unmute] }

/-- Load `ticks_remaining` (R116, R117) or count it down (R111). -/
def State.setTicksRemaining (s : State) (d : Dur) : State := { s with ticksRemaining := d }

/-- The end of a pull of `w`: advance `src_pos` modulo SONG_LEN and emit `pull(w)` (R112). -/
def State.consumeWord (s : State) (w : Word) : State :=
  { s with srcPos := (s.srcPos + 1) % s.cfg.song.length, trace := s.trace ++ [.pull w] }

/-- `Restart()`: `src_pos <- 0; emit restart` (R53, R121). -/
def State.restartSource (s : State) : State := { s with srcPos := 0, trace := s.trace ++ [.restart] }

/-- Store a debounce step's result and its event (R91, R141). -/
def State.setDebounce (s : State) (d : DbState) (c : BitVec 8) (ev : ButtonEvent) : State :=
  { s with dbState := d, dbCount := c, eventOut := some ev }

/-- TICK_FIRE's effect: `tick_pending <- 1` (R146). -/
def State.setPending (s : State) : State := { s with tickPending := true }

/-- ENABLE_TICKS's effect: `ticks_enabled <- 1` (R147). -/
def State.setEnabled (s : State) : State := { s with ticksEnabled := true }

/-- The writes of fault entry (R164). -/
def State.haltWith (s : State) (code : FaultCode) (word : Word) : State :=
  { s with halted := true, faultCode := code, faultWord := word }

/-- `Pull()` (R112): the word at `src_pos` and the state after it; none where `src_pos` is no index of SONG, which no
reachable state has (R40 invariant 6). -/
def State.pull (s : State) : Option (Word × State) :=
  match s.cfg.song[s.srcPos]? with
  | some w => some (w, s.consumeWord w)
  | none => none

/-- FAULT ENTRY, `raise Fault(code, word)` (R164): nothing when already halted, so that the first fault is kept
(R166). No action is emitted and no other field changes. -/
def raiseFault (code : FaultCode) (word : Word) (s : State) : State :=
  if s.halted then s else s.haltWith code word

/-- RESET (R180): every reset value of R41. It is the only way out of the halted state; there is no return from a
fault (R165). The configuration is fixed for the run, and the waiting turns are the other agents' (log 19). -/
def State.installReset (s : State) : State :=
  { s with
    dbState := s.cfg.initialState, dbCount := 0, led := false, ticksRemaining := 0, toneFreq := 0,
    toneSounding := false, toneMuted := true, tickPending := false, ticksEnabled := false, halted := false,
    faultCode := .none, faultWord := 0, srcPos := 0 }

/-- The start of a step: the outputs of the step before are gone, the waiting turn is used up, and the free-value
counter moves on (R18, R37; log 5, log 8). -/
def State.beginStep (s : State) : State :=
  { s with trace := [], eventOut := none, inbox := s.inbox.tail, freeIndex := s.freeIndex + 1 }

/-- Put an event among coincident ones in the order of R168, before those of its own rank. -/
def insertByPriority (e : Event) : List Event → List Event
  | [] => [e]
  | x :: xs => if eventPriority e ≤ eventPriority x then e :: x :: xs else x :: insertByPriority e xs

/-- Coincident events in the order of R168. -/
def byPriority : List Event → List Event
  | [] => []
  | e :: es => insertByPriority e (byPriority es)

/-- Events that arrive at the same instant join the waiting turns in the order of R168. -/
def State.arrive (s : State) (coincident : List Event) : State :=
  { s with inbox := s.inbox ++ byPriority coincident }

end Sys2Proof.Machine
end

