-- ==== Sys2Proof/Machine/Debounce.lean ====
section
/-! DEFINITION. The debounce filter (40_debounce.md R91). -/

namespace Sys2Proof.Machine

/-- DEBOUNCE_STEP as a function of what it reads: the new confirmed state, the new run counter and the event. -/
def filterStep (cfg : Config) (raw : Bool) (d : DbState) (c : BitVec 8) : DbState × BitVec 8 × ButtonEvent :=
  if raw = confirmedLevel cfg d then (d, 0, .nothing)
  else if c + 1 = cfg.threshold then (flipped d, 0, leaveEvent d)
  else (d, c + 1, .nothing)

/-- DEBOUNCE_STEP on the block's own fields, with `event_out` set (R91, R141). -/
def debounceStep (raw : Bool) (s : State) : State :=
  let r := filterStep s.cfg raw s.dbState s.dbCount
  s.setDebounce r.1 r.2.1 r.2.2

/-- The event that DEBOUNCE_STEP returns. -/
def debounceEvent (raw : Bool) (s : State) : ButtonEvent :=
  (filterStep s.cfg raw s.dbState s.dbCount).2.2

/-- The events of a sequence of samples, one per sample. -/
def filterEvents (cfg : Config) (d : DbState) (c : BitVec 8) : List Bool → List ButtonEvent
  | [] => []
  | raw :: rest =>
    let r := filterStep cfg raw d c
    r.2.2 :: filterEvents cfg r.1 r.2.1 rest

/-- Where a sequence of samples leaves the filter. -/
def filterEnd (cfg : Config) (d : DbState) (c : BitVec 8) : List Bool → DbState × BitVec 8
  | [] => (d, c)
  | raw :: rest =>
    let r := filterStep cfg raw d c
    filterEnd cfg r.1 r.2.1 rest

end Sys2Proof.Machine
end

