-- ==== Sys2Proof/Machine/Operands.lean ====
section
/-! DEFINITION. Operand assembly (30_encoding.md R70, R71): the fields of a command word, each a zero-extended bit
field with no scaling, sign or offset, and how the fields make a word. -/

namespace Sys2Proof

/-- `op = w[31:29]` (R70). -/
def opField (w : Word) : BitVec 3 := w.extractLsb' 29 3

/-- `dur = w[28:16]`, in ticks (R70, R71). -/
def durField (w : Word) : Dur := w.extractLsb' 16 13

/-- `pitch = w[15:0]`, in Hz (R70, R71). -/
def pitchField (w : Word) : Pitch := w.extractLsb' 0 16

/-- `w[28:0]`, everything below the opcode (R73). -/
def payloadField (w : Word) : Payload := w.extractLsb' 0 29

/-- A pitch in its place, bits 15 to 0. -/
def placePitch (p : Pitch) : Word := p.setWidth 32

/-- A duration in its place, `dur << 16`. -/
def placeDur (d : Dur) : Word := d.setWidth 32 <<< 16

/-- Bits 28 to 0 in their place. -/
def placePayload (x : Payload) : Word := x.setWidth 32

end Sys2Proof
end

