-- ==== Sys2Proof/WellFormed.lean ====
section
/-! DEFINITION. Which terms of Instr are what the decoder can answer: the operand ranges of R73. -/

namespace Sys2Proof

/-- A pitch operand is 1 to 65535 (R73: "Pitch 0 and duration 0 are illegal, not no-ops"). -/
def pitchOk (p : Pitch) : Bool := p != 0

/-- A duration operand is 1 to 8191 (R73). -/
def durOk (d : Dur) : Bool := d != 0

/-- The operand conditions of R73. A reserved row has no operand: any 29 bits below its opcode belong to it. -/
def Instr.wellFormed : Instr → Bool
  | .wait => true
  | .beginNote p => pitchOk p
  | .endNote => true
  | .note p d => pitchOk p && durOk d
  | .rest d => durOk d
  | .reserved101 _ => true
  | .reserved110 _ => true
  | .reserved111 _ => true

/-- A legal command of R73: one of the five commands, with its operands in range. -/
def Instr.legal (i : Instr) : Bool := i.isCommand && i.wellFormed

end Sys2Proof
end

