-- ==== Sys2Proof/Decode.lean ====
section
/-! DEFINITION. The decoder of 30_encoding.md R75, total on 32-bit words and rejecting by name, and the encoder. -/

namespace Sys2Proof

/-- Why a word with a defined opcode is Illegal (R73). -/
inductive DecodeError where
  /-- WAIT or END_NOTE with `w[28:0] != 0`. -/
  | payloadNotZero
  /-- BEGIN_NOTE with `w[28:16] != 0`. -/
  | durFieldNotZero
  /-- REST with `w[15:0] != 0`. -/
  | pitchFieldNotZero
  /-- BEGIN_NOTE or NOTE with pitch 0. -/
  | pitchZero
  /-- NOTE or REST with duration 0. -/
  | durZero
  deriving DecidableEq, Repr

/-- WAIT is the word 0x00000000 only (R73). -/
def decodeWait (w : Word) : Except DecodeError Instr :=
  if payloadField w = 0 then .ok .wait else .error .payloadNotZero

/-- BEGIN_NOTE needs `dur == 0 and pitch != 0` (R75). -/
def decodeBeginNote (w : Word) : Except DecodeError Instr :=
  if durField w ≠ 0 then .error .durFieldNotZero
  else if pitchField w = 0 then .error .pitchZero
  else .ok (.beginNote (pitchField w))

/-- END_NOTE is the word 0x40000000 only (R73). -/
def decodeEndNote (w : Word) : Except DecodeError Instr :=
  if payloadField w = 0 then .ok .endNote else .error .payloadNotZero

/-- NOTE needs `dur != 0 and pitch != 0` (R75). -/
def decodeNote (w : Word) : Except DecodeError Instr :=
  if durField w = 0 then .error .durZero
  else if pitchField w = 0 then .error .pitchZero
  else .ok (.note (pitchField w) (durField w))

/-- REST needs `dur != 0 and pitch == 0` (R75). -/
def decodeRest (w : Word) : Except DecodeError Instr :=
  if durField w = 0 then .error .durZero
  else if pitchField w ≠ 0 then .error .pitchFieldNotZero
  else .ok (.rest (durField w))

/-- R75's case on the opcode. A reserved opcode answers its own row of the table, whose meaning is the
ILLEGAL_COMMAND fault (R74, R118); the other illegal words are rejected by name. -/
def decode (w : Word) : Except DecodeError Instr :=
  if opField w = 0b000#3 then decodeWait w
  else if opField w = 0b001#3 then decodeBeginNote w
  else if opField w = 0b010#3 then decodeEndNote w
  else if opField w = 0b011#3 then decodeNote w
  else if opField w = 0b100#3 then decodeRest w
  else if opField w = 0b101#3 then .ok (.reserved101 (payloadField w))
  else if opField w = 0b110#3 then .ok (.reserved110 (payloadField w))
  else .ok (.reserved111 (payloadField w))

/-- The legality condition of R73's table, written from the table and not from the decoder. -/
def legalWord (w : Word) : Bool :=
  (w &&& 0xE0000000 == 0x00000000 && payloadField w == 0)
  || (w &&& 0xE0000000 == 0x20000000 && durField w == 0 && pitchField w != 0)
  || (w &&& 0xE0000000 == 0x40000000 && payloadField w == 0)
  || (w &&& 0xE0000000 == 0x60000000 && durField w != 0 && pitchField w != 0)
  || (w &&& 0xE0000000 == 0x80000000 && durField w != 0 && pitchField w == 0)

/-- The word of an instruction: `encode` of R75 on the five commands, and the table's match value with the free bits
in place on a reserved row. -/
def encode : Instr → Word
  | .wait => 0x00000000
  | .beginNote p => 0x20000000 ||| placePitch p
  | .endNote => 0x40000000
  | .note p d => 0x60000000 ||| placeDur d ||| placePitch p
  | .rest d => 0x80000000 ||| placeDur d
  | .reserved101 x => 0xA0000000 ||| placePayload x
  | .reserved110 x => 0xC0000000 ||| placePayload x
  | .reserved111 x => 0xE0000000 ||| placePayload x

/-- The word whose bits are `w`, those at and above bit `nbits` zero. Every command is one 32-bit word (R70), so no
instruction has more than 32 bits. -/
def tableWord (nbits w : Nat) : Word := BitVec.ofNat 32 (w % 2 ^ nbits)

/-- What the decoder reads from an instruction whose bits are `w`. The word crosses the interface as one value, so
no byte order enters (R51; log 13). -/
def decodeTableWord (nbits w : Nat) : Option Instr :=
  if nbits ≤ 32 then
    match decode (tableWord nbits w) with
    | .ok i => some i
    | .error _ => none
  else none

end Sys2Proof
end

