-- ==== Sys2Proof/Machine/Reserved.lean ====
section
/-! DEFINITION. The illegal command word (41_sequencer.md R118) and the reserved rows of the opcode table. -/

namespace Sys2Proof.Machine

/-- R118, R163: a word that decodes as Illegal raises ILLEGAL_COMMAND with the word. The pull has happened and
nothing of the word is performed. -/
def illegalCommand (w : Word) (s : State) : Result := .next (raiseFault .illegalCommand w s)

/-- A word with the reserved opcode 0b101 (R74, R118). -/
def execReserved101 (x : Payload) (s : State) : Result := illegalCommand (encode (.reserved101 x)) s

/-- A word with the reserved opcode 0b110 (R74, R118). -/
def execReserved110 (x : Payload) (s : State) : Result := illegalCommand (encode (.reserved110 x)) s

/-- A word with the reserved opcode 0b111 (R74, R118). -/
def execReserved111 (x : Payload) (s : State) : Result := illegalCommand (encode (.reserved111 x)) s

end Sys2Proof.Machine
end

