-- ==== Sys2Proof/Machine/Coarse.lean ====
section
/-! DEFINITION. The coarse commands NOTE and REST (41_sequencer.md R116, R117). As for the fine ones, a term whose
operand is out of range stands for an illegal word and takes its fault (log 12). -/

namespace Sys2Proof.Machine

/-- R116: `tone_freq <- p; tone_sounding <- 1; emit play(p); ticks_remaining <- d`. -/
def execNote (p : Pitch) (d : Dur) (s : State) : Result :=
  if pitchOk p && durOk d then .next ((s.play p).setTicksRemaining d)
  else illegalCommand (encode (.note p d)) s

/-- R117: `tone_sounding <- 0; emit silence; ticks_remaining <- d`. -/
def execRest (d : Dur) (s : State) : Result :=
  if durOk d then .next (s.silence.setTicksRemaining d) else illegalCommand (encode (.rest d)) s

end Sys2Proof.Machine
end

