-- ==== Sys2Proof/Machine/Fine.lean ====
section
/-! DEFINITION. The fine commands WAIT, BEGIN_NOTE and END_NOTE (41_sequencer.md R113 to R115).

A term whose operand is out of range stands for an illegal word (R73), and its meaning is that word's: the fault of
R118. The decoder never answers such a term (log 12). -/

namespace Sys2Proof.Machine

/-- R113: "`Wait` is a no-op". -/
def execWait (s : State) : Result := .next s

/-- R114: `tone_freq <- p; tone_sounding <- 1; emit play(p)`. -/
def execBeginNote (p : Pitch) (s : State) : Result :=
  if pitchOk p then .next (s.play p) else illegalCommand (encode (.beginNote p)) s

/-- R115: `tone_sounding <- 0; emit silence`. -/
def execEndNote (s : State) : Result := .next s.silence

end Sys2Proof.Machine
end

