-- ==== Sys2Proof/Machine/Dispatch.lean ====
section
/-! DEFINITION. `EXECUTE(c)` of 41_sequencer.md R111: one arm per constructor of Instr. -/

namespace Sys2Proof.Machine

def exec (i : Instr) (s : State) : Host.Outcome State Fault Refusal :=
  match i with
  | .wait => Sys2Proof.Machine.execWait s
  | .beginNote p => Sys2Proof.Machine.execBeginNote p s
  | .endNote => Sys2Proof.Machine.execEndNote s
  | .note p d => Sys2Proof.Machine.execNote p d s
  | .rest d => Sys2Proof.Machine.execRest d s
  | .reserved101 x => Sys2Proof.Machine.execReserved101 x s
  | .reserved110 x => Sys2Proof.Machine.execReserved110 x s
  | .reserved111 x => Sys2Proof.Machine.execReserved111 x s

end Sys2Proof.Machine
end

