-- ==== Sys2Proof/Machine/Sequencer.lean ====
section
/-! DEFINITION. The playback sequencer: ADVANCE, ARM and DISARM (41_sequencer.md R111, R120, R121). -/

namespace Sys2Proof.Machine

/-- The first half of ADVANCE: count `ticks_remaining` down when it is above 0 (R111). -/
def countDown (s : State) : State :=
  if 0 < s.ticksRemaining then s.setTicksRemaining (s.ticksRemaining - 1) else s

/-- Decode a pulled word and execute it, or raise ILLEGAL_COMMAND (R111, R118). -/
def runWord (w : Word) (s : State) : Result :=
  match decode w with
  | .ok i => exec i s
  | .error _ => illegalCommand w s

/-- The second half of ADVANCE when `ticks_remaining` is 0: pull one word and run it (R111, R112). -/
def pullAndRun (s : State) : Result :=
  match s.pull with
  | some (w, t) => runWord w t
  | none => .refused .srcPosOutOfRange

/-- ADVANCE (R111): the count-down and the test for 0 run in the same tick, in that order (D11, C2). -/
def advance (s : State) : Result :=
  let t := countDown s
  if t.ticksRemaining = 0 then pullAndRun t else .next t

/-- ARM (R120): no storage, no action; `armed` is `led`, which the toggle has just set. -/
def arm (s : State) : State := s

/-- DISARM (R121): silence the tone; under RESTART also return to the start of the cycle. -/
def disarm (s : State) : State :=
  match s.cfg.rearmPolicy with
  | .resume => s.silence
  | .restart => (s.silence.setTicksRemaining 0).restartSource

end Sys2Proof.Machine
end

