-- ==== Sys2Proof/Machine/Tick.lean ====
section
/-! DEFINITION. The TICK step (42_dispatcher.md R140 to R144, composed as R148). -/

namespace Sys2Proof.Machine

/-- Step 3, the toggle, for the event of step 2 (R142, R143). -/
def toggle (ev : ButtonEvent) (s : State) : State :=
  match ev with
  | .pressed =>
    let t := s.setLed (!s.led)
    if t.led then (arm t).unmute else (disarm t).mute
  | .released => s
  | .nothing => s

/-- Steps 1 to 3: acknowledge, sample and filter, toggle. -/
def tickFront (raw : Bool) (s : State) : State :=
  let t := s.ackTick
  toggle (debounceEvent raw t) (debounceStep raw t)

/-- The whole TICK (R148): after steps 1 to 3, step 4 reads `led` as step 3 left it, and step 5 advances (R144). -/
def tick (raw : Bool) (s : State) : Result :=
  let t := tickFront raw s
  if t.led then advance t else .next t

end Sys2Proof.Machine
end

