-- ==== Sys2Proof/Machine/Events.lean ====
section
/-! DEFINITION. The events of 00_scope.md R17 and whose turn it is. -/

namespace Sys2Proof.Machine

/-- The dispatcher's turn: TICK when it is enabled (R140). When it is not, no TICK step is taken and the state is
held (R174; log 6). -/
def takeTick (raw : Bool) (s : State) : Result := if s.tickEnabled then tick raw s else .next s

/-- ENABLE_TICKS (R147): nothing while halted. -/
def enableTicks (s : State) : State := if s.halted then s else s.setEnabled

/-- FATAL(kind) (R161, R162): fault entry with its code and word 0. -/
def fatal (kind : FatalKind) (s : State) : State := raiseFault (fatalCode kind) 0 s

/-- One event, on a state whose outputs have been cleared. -/
def takeEvent (e : Event) (s : State) : Result :=
  match e with
  | .reset => .next s.installReset
  | .enableTicks => .next (enableTicks s)
  | .tickFire => .next s.setPending
  | .tick raw => takeTick raw s
  | .fatal kind => .next (fatal kind s)

/-- Whose turn it is: the oldest waiting one; with none waiting, the dispatcher's when TICK is enabled, since the tick
"is taken as the TICK step whenever it is pending, enabled and not halted" (R167), with a free input level (R38). -/
def nextEvent (s : State) : Option Event :=
  match s.inbox with
  | e :: _ => some e
  | [] => if s.tickEnabled then some (.tick (Config.inputLevel s.freeIndex)) else none

/-- The event of R17 that the step from `s` is: the one whose turn it is, but for a TICK that is not enabled, which is
no step (R140, 93_implementation_defined.md section 2). None for a turn so used up and for the idle step (log 6,
log 17). -/
def eventTaken (s : State) : Option Event :=
  match nextEvent s with
  | some (.tick raw) => if s.tickEnabled then some (.tick raw) else none
  | some .reset => some .reset
  | some .enableTicks => some .enableTicks
  | some .tickFire => some .tickFire
  | some (.fatal kind) => some (.fatal kind)
  | none => none

/-- No turn is to be taken: a halted block is stopped (R165; log 7), any other is idle with its state held (R174;
log 17). -/
def idle (s : State) : Result := if s.halted then .fault (.halted s.faultCode) else .next s.beginStep

/-- The turn that is due. -/
def takeTurn (s : State) : Result :=
  match nextEvent s with
  | some e => takeEvent e s.beginStep
  | none => idle s

end Sys2Proof.Machine
end

