-- ==== Sys2Proof/Machine/Step.lean ====
section
/-! DEFINITION. One atomic step of the machine (00_scope.md R17), and the load of a one-word program. -/

namespace Sys2Proof.Machine

/-- One step: refused outside the legal configurations and outside the state type (R39, R40, D4), else the turn that
is due. -/
def step (s : State) : Host.Outcome State Fault Refusal :=
  if !configLegal s.cfg then .refused .illegalConfiguration
  else if !s.dbCountInRange then .refused .dbCountOutOfRange
  else takeTurn s

/-- A configuration with the one-word SONG `w`; a parameter outside its legal values takes its default. -/
def withSongWord (cfg : Config) (w : Word) : Config :=
  { cfg with
    song := [w]
    threshold := if cfg.threshold = 0 then 30 else cfg.threshold
    tickPeriodUs := if cfg.tickPeriodUs = 0 then 1000 else cfg.tickPeriodUs }

/-- The block about to pull the word of `nbits` bits `w`: SONG is that one word, the block is enabled, not halted and
armed, no coarse command is running, and the next turn is a TICK whose sample matches the confirmed state, so that it
toggles nothing (R140, R143, R144, R111; log 2). -/
def State.withFetchWord (s : State) (nbits w : Nat) : State :=
  { s with
    cfg := withSongWord s.cfg (tableWord nbits w)
    srcPos := 0, ticksRemaining := 0, dbCount := 0
    ticksEnabled := true, tickPending := true
    halted := false, faultCode := .none, faultWord := 0
    led := true, toneMuted := false
    inbox := .tick (confirmedLevel s.cfg s.dbState) :: s.inbox }

end Sys2Proof.Machine
end

