-- ==== Sys2Proof/Machine/Assembler.lean ====
section
/-! DEFINITION. The textual syntax of a command stream and its pseudo-instructions (30_encoding.md R77, R78). -/

namespace Sys2Proof.Machine

/-- One line of a command stream, operands as written (R77, R78). -/
inductive AsmLine where
  | wait
  | beginNote (p : Nat)
  | endNote
  | note (p d : Nat)
  | rest (d : Nat)
  /-- `.word <value>`: a raw word, legal or not. -/
  | word (v : Nat)
  /-- `WAITN <n>`. -/
  | waitn (n : Nat)
  /-- `FNOTE <pitch>, <d>`. -/
  | fnote (p d : Nat)
  /-- `FREST <d>`. -/
  | frest (d : Nat)
  deriving DecidableEq, Repr

/-- A pitch operand in its range, 1 to 65535; any other is an assembly error (R77). -/
def asmPitch (p : Nat) : Option Pitch := if 1 ≤ p ∧ p ≤ 65535 then some (BitVec.ofNat 16 p) else none

/-- A duration operand in its range, 1 to 8191; any other is an assembly error (R77). -/
def asmDur (d : Nat) : Option Dur := if 1 ≤ d ∧ d ≤ 8191 then some (BitVec.ofNat 13 d) else none

/-- `WAITN n`: `n` copies of WAIT (R78). -/
def waits (n : Nat) : List Word := List.replicate n (encode .wait)

/-- `BEGIN_NOTE p` (R77). -/
def asmBeginNote (p : Nat) : Option (List Word) :=
  match asmPitch p with
  | some q => some [encode (.beginNote q)]
  | none => none

/-- `NOTE p, d` (R77). -/
def asmNote (p d : Nat) : Option (List Word) :=
  match asmPitch p, asmDur d with
  | some q, some e => some [encode (.note q e)]
  | _, _ => none

/-- `REST d` (R77). -/
def asmRest (d : Nat) : Option (List Word) :=
  match asmDur d with
  | some e => some [encode (.rest e)]
  | none => none

/-- `.word v` (R77). A value of more than 32 bits is an assembly error, DESIGN CHOICE (log 14). -/
def asmWord (v : Nat) : Option (List Word) := if v < 2 ^ 32 then some [BitVec.ofNat 32 v] else none

/-- `FNOTE p, d`: `BEGIN_NOTE p` then `WAITN d-1`, with `1 <= d` (R78). -/
def asmFnote (p d : Nat) : Option (List Word) :=
  if d = 0 then none
  else match asmBeginNote p with
    | some ws => some (ws ++ waits (d - 1))
    | none => none

/-- `FREST d`: `END_NOTE` then `WAITN d-1`, with `1 <= d` (R78). -/
def asmFrest (d : Nat) : Option (List Word) :=
  if d = 0 then none else some (encode .endNote :: waits (d - 1))

/-- The words of one line; none is an assembly error (R77, R78). -/
def assembleLine : AsmLine → Option (List Word)
  | .wait => some [encode .wait]
  | .beginNote p => asmBeginNote p
  | .endNote => some [encode .endNote]
  | .note p d => asmNote p d
  | .rest d => asmRest d
  | .word v => asmWord v
  | .waitn n => some (waits n)
  | .fnote p d => asmFnote p d
  | .frest d => asmFrest d

/-- "A stream is the list of lines in order" (R77). -/
def assemble : List AsmLine → Option (List Word)
  | [] => some []
  | l :: ls =>
    match assembleLine l, assemble ls with
    | some ws, some rest => some (ws ++ rest)
    | _, _ => none

/-- The fine form of a line: NOTE as FNOTE and REST as FREST (R78). -/
def fineForm : AsmLine → AsmLine
  | .note p d => .fnote p d
  | .rest d => .frest d
  | .wait => .wait
  | .beginNote p => .beginNote p
  | .endNote => .endNote
  | .word v => .word v
  | .waitn n => .waitn n
  | .fnote p d => .fnote p d
  | .frest d => .frest d

/-! ### From characters to lines -/

/-- "A comment starts with `;` and runs to the end of the line" (R77). -/
def stripComment : List Char → List Char
  | [] => []
  | c :: cs => if c = ';' then [] else c :: stripComment cs

/-- Drop the spaces at the front. Only the space is one: a tab is an error, DESIGN CHOICE (log 14). -/
def trimFront : List Char → List Char
  | [] => []
  | c :: cs => if c = ' ' then trimFront cs else c :: cs

/-- Drop the spaces at both ends. -/
def trim (cs : List Char) : List Char := (trimFront (trimFront cs).reverse).reverse

/-- Cut at a separator. -/
def cutAt (sep : Char) : List Char → List (List Char)
  | [] => [[]]
  | c :: cs =>
    if c = sep then [] :: cutAt sep cs
    else match cutAt sep cs with
      | [] => [[c]]
      | w :: ws => (c :: w) :: ws

/-- Decimal digit. -/
def decDigit (c : Char) : Option Nat :=
  if 48 ≤ c.toNat ∧ c.toNat ≤ 57 then some (c.toNat - 48) else none

/-- Hexadecimal digit, of either case, DESIGN CHOICE (log 14). -/
def hexDigit (c : Char) : Option Nat :=
  if 48 ≤ c.toNat ∧ c.toNat ≤ 57 then some (c.toNat - 48)
  else if 65 ≤ c.toNat ∧ c.toNat ≤ 70 then some (c.toNat - 55)
  else if 97 ≤ c.toNat ∧ c.toNat ≤ 102 then some (c.toNat - 87)
  else none

/-- Digits to a number; none if a character is no digit. -/
def digits (base : Nat) (digit : Char → Option Nat) (acc : Nat) : List Char → Option Nat
  | [] => some acc
  | c :: cs =>
    match digit c with
    | some v => digits base digit (acc * base + v) cs
    | none => none

/-- "Operands are decimal or `0x` hexadecimal" (R77). Leading zeros are allowed and the `x` is lower case, DESIGN CHOICE
(log 14). -/
def parseNumber (cs : List Char) : Option Nat :=
  if cs = [] then none
  else if cs.take 2 = "0x".toList then
    if cs.drop 2 = [] then none else digits 16 hexDigit 0 (cs.drop 2)
  else digits 10 decDigit 0 cs

/-- Every number, or none if one of them is none. -/
def parseNumbers : List (List Char) → Option (List Nat)
  | [] => some []
  | cs :: rest =>
    match parseNumber (trim cs), parseNumbers rest with
    | some v, some vs => some (v :: vs)
    | _, _ => none

/-- Operands "separated by a comma and optional spaces" (R77): any number of spaces on either side of the comma, DESIGN
CHOICE (log 14). -/
def parseOperands (cs : List Char) : Option (List Nat) :=
  if trim cs = [] then some [] else parseNumbers (cutAt ',' cs)

/-- A mnemonic with its operands (R77, R78); "Mnemonics are upper case". -/
def lineOf (mnemonic : List Char) (operands : List Nat) : Option AsmLine :=
  match operands with
  | [] =>
    if mnemonic = "WAIT".toList then some .wait
    else if mnemonic = "END_NOTE".toList then some .endNote
    else none
  | [a] =>
    if mnemonic = "BEGIN_NOTE".toList then some (.beginNote a)
    else if mnemonic = "REST".toList then some (.rest a)
    else if mnemonic = ".word".toList then some (.word a)
    else if mnemonic = "WAITN".toList then some (.waitn a)
    else if mnemonic = "FREST".toList then some (.frest a)
    else none
  | [a, b] =>
    if mnemonic = "NOTE".toList then some (.note a b)
    else if mnemonic = "FNOTE".toList then some (.fnote a b)
    else none
  | _ => none

/-- The mnemonic of a line: its characters up to the first space. -/
def mnemonicOf : List Char → List Char
  | [] => []
  | c :: cs => if c = ' ' then [] else c :: mnemonicOf cs

/-- One line of text: `some []` for a line that holds only spaces or a comment, none for a line that is not of R77's
syntax. Spaces may stand before the mnemonic and after the last operand: R77 speaks only of those between operands,
DESIGN CHOICE (log 14). -/
def parseLine (text : List Char) : Option (List AsmLine) :=
  let t := trim (stripComment text)
  if t = [] then some []
  else match parseOperands (t.drop (mnemonicOf t).length) with
    | none => none
    | some vs =>
      match lineOf (mnemonicOf t) vs with
      | some l => some [l]
      | none => none

/-- The lines of a text, "One command per line" (R77). -/
def parseLines : List (List Char) → Option (List AsmLine)
  | [] => some []
  | t :: ts =>
    match parseLine t, parseLines ts with
    | some l, some ls => some (l ++ ls)
    | _, _ => none

/-- From the text of a command stream to the words of SONG; none where a line is an error. R77 says only "One command per
line": that LF alone ends a line, and that a CR outside a comment makes its line an error, is a DESIGN CHOICE (log 14). -/
def assembleText (text : List Char) : Option (List Word) :=
  match parseLines (cutAt '\n' text) with
  | some ls => assemble ls
  | none => none

end Sys2Proof.Machine
end

