-- ==== Sys2Proof/Machine/Run.lean ====
section
/-! DEFINITION. Runs and what is observed of them (00_scope.md R18), in the terms the statements use. -/

namespace Sys2Proof.Machine

/-- One step as it is observed (R18): the event it is, its ordered action trace, and the state after it. -/
abbrev Observed := Event × List Action × State

/-- What is observed of the step from `s` to `t`: one entry when it is one of the events of R17, nothing when it is a
turn without TICK or an idle step, which are no steps of R17 (log 6, log 17). -/
def observeStep (s t : State) : List Observed :=
  match eventTaken s with
  | some e => [(e, t.trace, t)]
  | none => []

/-- The observation of a run of at most `n` turns: the sequence of the steps taken, each with its action trace and the
state after it (R18). It ends at the first fault or refusal. -/
def observe : Nat → State → List Observed
  | 0, _ => []
  | n + 1, s =>
    match step s with
    | .next t => observeStep s t ++ observe n t
    | .fault _ => []
    | .refused _ => []

/-- A state with exactly these turns waiting. -/
def State.withInbox (s : State) (turns : List Event) : State := { s with inbox := turns }

/-- One firing and then the dispatcher's turn with the input reading `raw`: two steps. -/
def fireAndTick (raw : Bool) (s : State) : Result :=
  match step (s.withInbox [.tickFire]) with
  | .next t => step (t.withInbox [.tick raw])
  | .fault r => .fault r
  | .refused r => .refused r

/-- The states after each tick of a run in which every tick is preceded by one firing; none if a step answers no
next state. -/
def tickStates : List Bool → State → Option (List State)
  | [], _ => some []
  | raw :: rest, s =>
    match fireAndTick raw s with
    | .next t =>
      match tickStates rest t with
      | some ts => some (t :: ts)
      | none => none
    | .fault _ => none
    | .refused _ => none

/-- The tone actions of the latest step (R123, R124). -/
def toneActions (s : State) : List Action := s.trace.filter isToneAction

/-- How many ADVANCEs in a row: the state after `n` of them. -/
def advances : Nat → State → Result
  | 0, s => .next s
  | n + 1, s =>
    match advance s with
    | .next t => advances n t
    | .fault r => .fault r
    | .refused r => .refused r

/-- The ticks a command owns: `dur` for a coarse command and 1 for a fine one (R123). -/
def ticksOwned (w : Word) : Nat :=
  match decode w with
  | .ok (.note _ d) => d.toNat
  | .ok (.rest d) => d.toNat
  | .ok _ => 1
  | .error _ => 1

/-- The period P of R123: the sum over SONG of the ticks each command owns. -/
def songTicks : List Word → Nat
  | [] => 0
  | w :: ws => ticksOwned w + songTicks ws

/-- The tone actions of a legal command (R113 to R117). -/
def commandActions : Instr → List Action
  | .wait => []
  | .beginNote p => [.play p]
  | .endNote => [.silence]
  | .note p _ => [.play p]
  | .rest _ => [.silence]
  | .reserved101 _ => []
  | .reserved110 _ => []
  | .reserved111 _ => []

/-- The outputs that an action leaves on the block's output fields: `led`, `tone_freq`, `tone_sounding`,
`tone_muted` (R24, R27 to R29). -/
def outputAfter (s : State) : Action → State
  | .setLed b => { s with led := b }
  | .play f => { s with toneFreq := f, toneSounding := true }
  | .silence => { s with toneSounding := false }
  | .mute => { s with toneMuted := true }
  | .unmute => { s with toneMuted := false }
  | .ack => s
  | .pull _ => s
  | .restart => s

end Sys2Proof.Machine
end

