-- ==== Sys2Proof/Safety.lean ====
section
/-! DEFINITION. The invariants of 10_state.md R40, the reachable states, and what a run without a fault is. -/

namespace Sys2Proof.Machine

/-- A legal configuration and `db_count < THRESHOLD`: the states the model has steps for (R39, R40). -/
def State.typed (s : State) : Bool := configLegal s.cfg && s.dbCountInRange

/-- The six invariants of R40. -/
structure State.Inv (s : State) : Prop where
  /-- 1: `db_count < THRESHOLD`. -/
  count : s.dbCount < s.cfg.threshold
  /-- 2: `led == 0` implies `tone_muted == 1` and `tone_sounding == 0`. -/
  off : s.led = false → s.toneMuted = true ∧ s.toneSounding = false
  /-- 3: `led == 1` implies `tone_muted == 0`. -/
  on : s.led = true → s.toneMuted = false
  /-- 4: `halted == 0` if and only if `fault_code == 0`. -/
  code : s.halted = false ↔ s.faultCode = .none
  /-- 5: `fault_code != 3` implies `fault_word == 0`. -/
  word : s.faultCode ≠ .illegalCommand → s.faultWord = 0
  /-- 6: `0 <= src_pos < SONG_LEN`. -/
  pos : s.srcPos < s.cfg.song.length

/-- The states a run under `cfg` can be in: any schedule of turns may be waiting at the start, and any turns may join
it later. -/
inductive Reachable (cfg : Config) : State → Prop where
  | boot (turns : List Event) : Reachable cfg (State.boot cfg turns)
  | step {s t : State} : Reachable cfg s → Machine.step s = .next t → Reachable cfg t
  | turns {s : State} (more : List Event) : Reachable cfg s → Reachable cfg (s.arrive more)

/-- No fatal condition has arisen (R165: a halted state "refutes any claim requiring no fault"). -/
def State.noFault (s : State) : Prop := s.halted = false

/-- `n` steps are taken, and no state on the way is halted. -/
def runsWithoutFault : Nat → State → Prop
  | 0, s => s.noFault
  | n + 1, s => s.noFault ∧ ∃ t, Machine.step s = .next t ∧ runsWithoutFault n t

end Sys2Proof.Machine
end

