-- ==== Sys2Proof/Certificates/Slice0/Obligations.lean ====
section
/-! DEFINITION. The statements for the provers. Each docstring names the rule of spec/ it formalises; a clause that is
the model's own choice names its log entry. -/

open Sys2Proof Sys2Proof.Machine

/-! ### Encoding -/

/-- Words written out from the encodings of 30_encoding.md (R72, R73, R79) decode to what they stand for, and the
illegal ones of 95_test_vectors.md section 2.2 are no legal words: those with a defined opcode are rejected by name, and
those with a reserved opcode (EV17 to EV20) answer their row of the opcode table, by the model's choice of log 12. -/
def Obligations.WrittenWordsDecode : Prop :=
  decode 0b00000000000000000000000000000000#32 = .ok .wait
  ∧ decode 0b00100000000000000000000110111000#32 = .ok (.beginNote 440)
  ∧ decode 0b01000000000000000000000000000000#32 = .ok .endNote
  ∧ decode 0b01100000000000110000000110111000#32 = .ok (.note 440 3)
  ∧ decode 0b01111111111111111111111111111111#32 = .ok (.note 65535 8191)
  ∧ decode 0b10000000000000100000000000000000#32 = .ok (.rest 2)
  ∧ decode 0b10011111111111110000000000000000#32 = .ok (.rest 8191)
  ∧ decode 0b10100000000000000000000000000001#32 = .ok (.reserved101 1)
  ∧ decode 0b11000000000000000000000110111000#32 = .ok (.reserved110 440)
  ∧ decode 0b11111111111111111111111111111111#32 = .ok (.reserved111 0x1FFFFFFF)
  ∧ decode 0xA0000000#32 = .ok (.reserved101 0)
  ∧ decode 0xE0000000#32 = .ok (.reserved111 0)
  ∧ decode 0x00000001#32 = .error .payloadNotZero
  ∧ decode 0x20000000#32 = .error .pitchZero
  ∧ decode 0x200101B8#32 = .error .durFieldNotZero
  ∧ decode 0x40010000#32 = .error .payloadNotZero
  ∧ decode 0x600001B8#32 = .error .durZero
  ∧ decode 0x60030000#32 = .error .pitchZero
  ∧ decode 0x80020001#32 = .error .pitchFieldNotZero
  ∧ decode 0x80000000#32 = .error .durZero
  ∧ legalWord 0x00000001#32 = false
  ∧ legalWord 0x20000000#32 = false
  ∧ legalWord 0x200101B8#32 = false
  ∧ legalWord 0x40010000#32 = false
  ∧ legalWord 0x600001B8#32 = false
  ∧ legalWord 0x60030000#32 = false
  ∧ legalWord 0x80020001#32 = false
  ∧ legalWord 0x80000000#32 = false
  ∧ legalWord 0xA0000000#32 = false
  ∧ legalWord 0xC00001B8#32 = false
  ∧ legalWord 0xE0000000#32 = false
  ∧ legalWord 0xFFFFFFFF#32 = false

/-- Decode and encode agree on every well-formed instruction, with every operand: on the legal commands as the last
sentence of R75 says (30_encoding.md section 2), and on the three reserved rows, whose words R75 calls Illegal, by the
model's choice of log 12. -/
def Obligations.DecodeOfEncodeIsTheInstruction : Prop :=
  ∀ i : Instr, i.wellFormed = true → decode (encode i) = .ok i

/-- Each word stands for at most one instruction, and that instruction is well formed (30_encoding.md section 2). A
reserved word, which R75 calls Illegal, stands for its row of the opcode table by the model's choice of log 12. -/
def Obligations.EncodeOfDecodeIsTheWord : Prop :=
  ∀ (w : Word) (i : Instr), decode w = .ok i → encode i = w ∧ i.wellFormed = true

/-- Which words are which, by number (the layout of R70, the opcode map of R72 and the conditions of R73): no
operand bit is read from another place. That the words with a reserved opcode, which R75 calls Illegal, answer their
three rows of the opcode table, with the 29 bits below the opcode kept, is the model's choice of log 12. -/
def Obligations.WordsOfEachInstruction : Prop :=
  ∀ w : Word,
    (decode w = .ok .wait ↔ w.toNat = 0)
    ∧ (∀ p, decode w = .ok (.beginNote p) ↔ p.toNat ≠ 0 ∧ w.toNat = 0x20000000 + p.toNat)
    ∧ (decode w = .ok .endNote ↔ w.toNat = 0x40000000)
    ∧ (∀ p d, decode w = .ok (.note p d) ↔
        p.toNat ≠ 0 ∧ d.toNat ≠ 0 ∧ w.toNat = 0x60000000 + d.toNat * 65536 + p.toNat)
    ∧ (∀ d, decode w = .ok (.rest d) ↔ d.toNat ≠ 0 ∧ w.toNat = 0x80000000 + d.toNat * 65536)
    ∧ (∀ x, decode w = .ok (.reserved101 x) ↔ w.toNat = 0xA0000000 + x.toNat)
    ∧ (∀ x, decode w = .ok (.reserved110 x) ↔ w.toNat = 0xC0000000 + x.toNat)
    ∧ (∀ x, decode w = .ok (.reserved111 x) ↔ w.toNat = 0xE0000000 + x.toNat)

/-- R73, whole: the legality table is met exactly by the words that decode to a legal command; the legal word counts
of the table; an illegal word raises ILLEGAL_COMMAND when it is pulled. -/
def Obligations.LegalWordsAndTheirCounts : Prop :=
  (∀ w : Word, legalWord w = true ↔ ∃ i, decode w = .ok i ∧ i.legal = true)
  ∧ {w : Word | decode w = .ok .wait}.ncard = 1
  ∧ {w : Word | ∃ p, decode w = .ok (.beginNote p)}.ncard = 65535
  ∧ {w : Word | decode w = .ok .endNote}.ncard = 1
  ∧ {w : Word | ∃ p d, decode w = .ok (.note p d)}.ncard = 8191 * 65535
  ∧ {w : Word | ∃ d, decode w = .ok (.rest d)}.ncard = 8191
  ∧ ∀ (s : State) (w : Word), s.halted = false → s.ticksRemaining = 0 → s.cfg.song[s.srcPos]? = some w →
      legalWord w = false →
      ∃ t, advance s = .next t ∧ t.halted = true ∧ t.faultCode = .illegalCommand ∧ t.faultWord = w

/-! ### The commands: what each does, and all it leaves alone -/

/-- R113: WAIT is the word 0 and does nothing. -/
def Obligations.WaitDoesNothing : Prop :=
  (∀ w : Word, decode w = .ok .wait ↔ w = 0x00000000#32) ∧ ∀ s : State, exec .wait s = .next s

/-- R114: BEGIN_NOTE sets the frequency, starts the sound and emits `play`, and changes nothing else. -/
def Obligations.BeginNotePlays : Prop :=
  (∀ (w : Word) (p : Pitch), decode w = .ok (.beginNote p) ↔ p ≠ 0 ∧ w = 0x20000000#32 ||| p.setWidth 32)
  ∧ ∀ (p : Pitch) (s : State), p ≠ 0 →
      exec (.beginNote p) s
        = .next { s with toneFreq := p, toneSounding := true, trace := s.trace ++ [.play p] }

/-- R115: END_NOTE stops the sound, keeps the frequency, emits `silence`, and changes nothing else. -/
def Obligations.EndNoteSilences : Prop :=
  (∀ w : Word, decode w = .ok .endNote ↔ w = 0x40000000#32)
  ∧ ∀ s : State, exec .endNote s = .next { s with toneSounding := false, trace := s.trace ++ [.silence] }

/-- R116, its operands, encoding, pseudocode and state written: NOTE plays and loads `ticks_remaining`. -/
def Obligations.NotePlaysForItsDuration : Prop :=
  (∀ (w : Word) (p : Pitch) (d : Dur), decode w = .ok (.note p d) ↔
      p ≠ 0 ∧ d ≠ 0 ∧ w = 0x60000000#32 ||| d.setWidth 32 <<< 16 ||| p.setWidth 32)
  ∧ ∀ (p : Pitch) (d : Dur) (s : State), p ≠ 0 → d ≠ 0 →
      exec (.note p d) s
        = .next { s with
            toneFreq := p, toneSounding := true, ticksRemaining := d, trace := s.trace ++ [.play p] }

/-- R117, its operands, encoding, pseudocode and state written: REST silences and loads `ticks_remaining`. -/
def Obligations.RestSilencesForItsDuration : Prop :=
  (∀ (w : Word) (d : Dur), decode w = .ok (.rest d) ↔ d ≠ 0 ∧ w = 0x80000000#32 ||| d.setWidth 32 <<< 16)
  ∧ ∀ (d : Dur) (s : State), d ≠ 0 →
      exec (.rest d) s
        = .next { s with toneSounding := false, ticksRemaining := d, trace := s.trace ++ [.silence] }

/-- The reserved opcodes 0b101, 0b110 and 0b111 (30_encoding.md section 2, 41_sequencer.md section 2): each completes
in fault entry with code 3 and its own word, and changes nothing else; in a halted state nothing changes. That these words have
terms of their own, the rows of the opcode table, is the model's choice of log 12. -/
def Obligations.ReservedOpcodesEnterTheFault : Prop :=
  (∀ (x : Payload) (s : State), s.halted = false →
    exec (.reserved101 x) s = .next { s with
      halted := true, faultCode := .illegalCommand, faultWord := 0xA0000000#32 ||| x.setWidth 32 }
    ∧ exec (.reserved110 x) s = .next { s with
      halted := true, faultCode := .illegalCommand, faultWord := 0xC0000000#32 ||| x.setWidth 32 }
    ∧ exec (.reserved111 x) s = .next { s with
      halted := true, faultCode := .illegalCommand, faultWord := 0xE0000000#32 ||| x.setWidth 32 })
  ∧ ∀ (x : Payload) (s : State), s.halted = true →
    exec (.reserved101 x) s = .next s ∧ exec (.reserved110 x) s = .next s ∧ exec (.reserved111 x) s = .next s

/-- The model's choice of log 12: an instruction term whose operand is out of range (R73: "Pitch 0 and duration 0 are
illegal, not no-ops") runs as the illegal word it encodes to. -/
def Obligations.OutOfRangeOperandsEnterTheFault : Prop :=
  ∀ (i : Instr) (s : State), i.wellFormed = false → s.halted = false →
    legalWord (encode i) = false
    ∧ exec i s = .next { s with halted := true, faultCode := .illegalCommand, faultWord := encode i }

/-- R118: an illegal word faults in step 5 of its TICK with the pull done, nothing of the word performed,
`ticks_remaining` at the 0 that ADVANCE left, and the earlier steps of the tick standing. -/
def Obligations.IllegalWordFaultsAfterItsPull : Prop :=
  ∀ (raw : Bool) (s : State) (w : Word), s.halted = false →
    (tickFront raw s).led = true → (tickFront raw s).ticksRemaining.toNat ≤ 1 →
    (tickFront raw s).cfg.song[(tickFront raw s).srcPos]? = some w → legalWord w = false →
    tick raw s = .next { tickFront raw s with
      ticksRemaining := 0
      srcPos := ((tickFront raw s).srcPos + 1) % s.cfg.song.length
      trace := (tickFront raw s).trace ++ [.pull w]
      halted := true, faultCode := .illegalCommand, faultWord := w }

/-! ### The debounce filter -/

/-- R91 and R92: DEBOUNCE_STEP by its pseudocode, with all it leaves alone. -/
def Obligations.DebounceStepFollowsItsRule : Prop :=
  ∀ (raw : Bool) (s : State), s.dbCount.toNat < s.cfg.threshold.toNat →
    (s.dbState = .asserted →
      (raw = s.cfg.assertedLevel →
        debounceStep raw s = { s with dbCount := 0, eventOut := some .nothing })
      ∧ (raw ≠ s.cfg.assertedLevel → s.dbCount.toNat + 1 ≠ s.cfg.threshold.toNat →
        ∃ c : BitVec 8, c.toNat = s.dbCount.toNat + 1
          ∧ debounceStep raw s = { s with dbCount := c, eventOut := some .nothing })
      ∧ (raw ≠ s.cfg.assertedLevel → s.dbCount.toNat + 1 = s.cfg.threshold.toNat →
        debounceStep raw s = { s with dbState := .deasserted, dbCount := 0, eventOut := some .pressed }))
    ∧ (s.dbState = .deasserted →
      (raw ≠ s.cfg.assertedLevel →
        debounceStep raw s = { s with dbCount := 0, eventOut := some .nothing })
      ∧ (raw = s.cfg.assertedLevel → s.dbCount.toNat + 1 ≠ s.cfg.threshold.toNat →
        ∃ c : BitVec 8, c.toNat = s.dbCount.toNat + 1
          ∧ debounceStep raw s = { s with dbCount := c, eventOut := some .nothing })
      ∧ (raw = s.cfg.assertedLevel → s.dbCount.toNat + 1 = s.cfg.threshold.toNat →
        debounceStep raw s = { s with dbState := .asserted, dbCount := 0, eventOut := some .released }))

/-- 40_debounce.md, the invariant of the counter (R94): one step of the machine leaves `db_count`, adds exactly one or
clears it, and `db_state` changes, outside RESET, only in a TICK whose incremented count is THRESHOLD. -/
def Obligations.CounterStepsByOneOrClears : Prop :=
  ∀ s t : State, step s = .next t →
    (t.dbCount = s.dbCount ∨ t.dbCount.toNat = s.dbCount.toNat + 1 ∨ t.dbCount = 0)
    ∧ (t.dbState ≠ s.dbState → nextEvent s ≠ some .reset →
        (∃ raw, nextEvent s = some (.tick raw)) ∧ s.dbCount.toNat + 1 = s.cfg.threshold.toNat ∧ t.dbCount = 0)

/-- The window property (R95): from a cleared counter, the sample after `raws` fires Pressed exactly when the filter
is confirmed Asserted and the last THRESHOLD samples are all the deasserted level, and Released with the roles
swapped. -/
def Obligations.EventIffWindowOfContrarySamples : Prop :=
  ∀ (cfg : Config) (d : DbState) (raws : List Bool) (raw : Bool), cfg.threshold ≠ 0 →
    let before := filterEnd cfg d 0 raws
    let event := (filterStep cfg raw before.1 before.2).2.2
    let n := cfg.threshold.toNat
    (event = .pressed ↔ before.1 = .asserted ∧ n ≤ (raws ++ [raw]).length
      ∧ ∀ x ∈ (raws ++ [raw]).drop ((raws ++ [raw]).length - n), x = !cfg.assertedLevel)
    ∧ (event = .released ↔ before.1 = .deasserted ∧ n ≤ (raws ++ [raw]).length
      ∧ ∀ x ∈ (raws ++ [raw]).drop ((raws ++ [raw]).length - n), x = cfg.assertedLevel)

/-- The boundary property (R96): THRESHOLD - 1 contrary samples and a matching one change nothing; THRESHOLD contrary
samples from a cleared counter flip the state on the last. -/
def Obligations.BoundaryOfTheThreshold : Prop :=
  ∀ (cfg : Config) (d : DbState), cfg.threshold ≠ 0 →
    let n := cfg.threshold.toNat
    let level := confirmedLevel cfg d
    filterEnd cfg d 0 (List.replicate (n - 1) (!level) ++ [level]) = (d, 0)
    ∧ filterEvents cfg d 0 (List.replicate (n - 1) (!level) ++ [level]) = List.replicate n .nothing
    ∧ filterEnd cfg d 0 (List.replicate n (!level)) = (flipped d, 0)
    ∧ filterEvents cfg d 0 (List.replicate n (!level)) = List.replicate (n - 1) .nothing ++ [leaveEvent d]

/-- Idempotence (R97) and the minimum time between events (R99): from a cleared counter, the first event comes no
earlier than sample THRESHOLD, two events are at least THRESHOLD samples apart, and between two events of one kind
stands one of the other kind. -/
def Obligations.EventsAlternateAndAreThresholdApart : Prop :=
  ∀ (cfg : Config) (d : DbState) (raws : List Bool) (j : Nat) (b : ButtonEvent), cfg.threshold ≠ 0 →
    (filterEvents cfg d 0 raws)[j]? = some b → b ≠ .nothing →
    cfg.threshold.toNat ≤ j + 1
    ∧ ∀ (i : Nat) (a : ButtonEvent), i < j → (filterEvents cfg d 0 raws)[i]? = some a → a ≠ .nothing →
        i + cfg.threshold.toNat ≤ j
        ∧ (a = b → ∃ k c, i < k ∧ k < j ∧ (filterEvents cfg d 0 raws)[k]? = some c ∧ c ≠ .nothing ∧ c ≠ a)

/-! ### The sequencer -/

/-- R111 and R112: ADVANCE by its pseudocode. With more than one tick left it only counts down; otherwise it clears
`ticks_remaining`, takes the word at `src_pos`, advances `src_pos` modulo SONG_LEN, emits `pull`, and runs the command,
or raises ILLEGAL_COMMAND. -/
def Obligations.AdvanceFollowsItsRule : Prop :=
  ∀ s : State, s.halted = false → s.srcPos < s.cfg.song.length →
    (1 < s.ticksRemaining.toNat →
      ∃ d : Dur, d.toNat = s.ticksRemaining.toNat - 1 ∧ advance s = .next { s with ticksRemaining := d })
    ∧ (s.ticksRemaining.toNat ≤ 1 →
      ∃ w, s.cfg.song[s.srcPos]? = some w
        ∧ (∀ i, decode w = .ok i → i.legal = true →
            advance s = exec i { s with
              ticksRemaining := 0, srcPos := (s.srcPos + 1) % s.cfg.song.length
              trace := s.trace ++ [.pull w] })
        ∧ (legalWord w = false →
            advance s = .next { s with
              ticksRemaining := 0, srcPos := (s.srcPos + 1) % s.cfg.song.length
              trace := s.trace ++ [.pull w]
              halted := true, faultCode := .illegalCommand, faultWord := w }))

/-- 41_sequencer.md, a coarse command owns exactly its duration (R111, R116): with `ticks_remaining = d` the next
`d - 1` ADVANCEs pull nothing and do nothing but count, and the `d`-th runs the next word. -/
def Obligations.CoarseCommandOwnsItsDuration : Prop :=
  ∀ (s : State) (d : Dur), d ≠ 0 →
    (∀ k : Nat, k < d.toNat →
      advances k { s with ticksRemaining := d }
        = .next { s with ticksRemaining := BitVec.ofNat 13 (d.toNat - k) })
    ∧ ∀ w, s.cfg.song[s.srcPos]? = some w →
      advances d.toNat { s with ticksRemaining := d }
        = runWord w { s with
            ticksRemaining := 0, srcPos := (s.srcPos + 1) % s.cfg.song.length, trace := s.trace ++ [.pull w] }

/-- R21: `src_pos` moves by one, modulo SONG_LEN, at each pull, returns to 0 at a restart and at RESET, and moves at no
other time; the word a pull takes is the one at `src_pos`. -/
def Obligations.SourcePositionMovesOnlyByPull : Prop :=
  ∀ s t : State, step s = .next t →
    (nextEvent s = some .reset → t.srcPos = 0)
    ∧ (nextEvent s ≠ some .reset →
      (∀ w, .pull w ∈ t.trace →
        s.cfg.song[s.srcPos]? = some w ∧ t.srcPos = (s.srcPos + 1) % s.cfg.song.length)
      ∧ (.restart ∈ t.trace → t.srcPos = 0)
      ∧ ((∀ w, .pull w ∉ t.trace) → .restart ∉ t.trace → t.srcPos = s.srcPos))

/-- The rate (R122, R54): a step pulls at most one word, and only with the indicator on after it. -/
def Obligations.AtMostOnePullPerStep : Prop :=
  ∀ s t : State, step s = .next t →
    (t.trace.filter isPull).length ≤ 1 ∧ ((t.trace.filter isPull).length = 1 → t.led = true)

/-- The arithmetic of `ticks_remaining` (R125, R26): a step leaves it, takes exactly one off, clears it in a RESET, in
a restart or in a pull, or loads it with the duration field of the word it pulls. -/
def Obligations.TicksRemainingNeverWraps : Prop :=
  ∀ s t : State, step s = .next t →
    t.ticksRemaining = s.ticksRemaining
    ∨ (t.ticksRemaining.toNat + 1 = s.ticksRemaining.toNat)
    ∨ (t.ticksRemaining = 0 ∧ (nextEvent s = some .reset ∨ .restart ∈ t.trace ∨ ∃ w, .pull w ∈ t.trace))
    ∨ ∃ w, .pull w ∈ t.trace ∧ t.ticksRemaining = durField w ∧ durField w ≠ 0

/-- Disarmed silence (R124): a TICK that starts and ends with the indicator off has the whole trace `ack`; one that
turns it off emits `ack, set_led(0), silence`, `restart` under RESTART, `mute`. Each is taken. -/
def Obligations.DisarmedTicksAreSilent : Prop :=
  ∀ (s : State) (raw : Bool) (rest : List Event), s.typed = true → s.inbox = .tick raw :: rest →
    s.tickEnabled = true →
    (s.led = false → debounceEvent raw s ≠ .pressed →
      ∃ t, step s = .next t ∧ t.led = false ∧ t.trace = [.ack])
    ∧ (s.led = true → debounceEvent raw s = .pressed →
      ∃ t, step s = .next t ∧ t.led = false
        ∧ t.trace = [.ack, .setLed false, .silence]
            ++ (if s.cfg.rearmPolicy = .restart then [.restart] else []) ++ [.mute])
    ∧ ∀ t, step s = .next t → t.led = false → t.trace.filter isPull = []

/-- The period (R123): a run of consecutive armed ticks that starts with `src_pos = 0` and `ticks_remaining = 0`,
under a SONG whose words are all legal, is taken, halts nowhere, and repeats its tone actions with the period P, the
ticks that SONG's commands own. -/
def Obligations.ToneActionsRepeatWithTheSongPeriod : Prop :=
  ∀ (s : State) (raws : List Bool), s.typed = true → s.ticksEnabled = true → s.halted = false → s.led = true →
    s.srcPos = 0 → s.ticksRemaining = 0 → (∀ w ∈ s.cfg.song, legalWord w = true) →
    ∃ states, tickStates raws s = some states ∧ (∀ t ∈ states, t.halted = false)
      ∧ ((∀ t ∈ states, t.led = true) →
        ∀ (k : Nat) (a b : State), states[k]? = some a → states[k + songTicks s.cfg.song]? = some b →
          toneActions a = toneActions b)

/-- The equivalence of the two encodings (R78, R76): a stream and the same stream with NOTE and REST written as FNOTE
and FREST emit the same tone actions at the same ticks, whatever the samples and the policy. It holds also where ticks
are not enabled, or the block is halted or is halted by a `.word` of the stream: that both runs then answer a state at
every tick turn, with no tone action, is the model's choice of log 6 (93_implementation_defined.md section 2 calls the
turn stuck). -/
def Obligations.FineAndCoarseFormsSoundAlike : Prop :=
  ∀ (s : State) (lines : List AsmLine) (coarse fine : List Word) (raws : List Bool),
    assemble lines = some coarse → assemble (lines.map fineForm) = some fine → coarse ≠ [] →
    s.typed = true → s.srcPos = 0 → s.ticksRemaining = 0 →
    ∃ cs fs, tickStates raws { s with cfg := { s.cfg with song := coarse } } = some cs
      ∧ tickStates raws { s with cfg := { s.cfg with song := fine } } = some fs
      ∧ cs.map toneActions = fs.map toneActions

/-! ### The TICK step -/

/-- When the bytes of the machine's next command, the word at `src_pos`, decode to an instruction, a step that is a
TICK whose ADVANCE is due is `exec` of it, on the state that the step has made before: steps 1 to 3 of the TICK, the
count-down, and the pull (R111, R144, R148). A word that does not decode takes the fault. A reserved word decodes to its
row of the opcode table, whose `exec` takes that fault (log 12). -/
def Obligations.StepRunsTheDecodedInstruction : Prop :=
  ∀ (s : State) (raw : Bool) (rest : List Event) (w : Word), s.typed = true → s.inbox = .tick raw :: rest →
    s.tickEnabled = true → (tickFront raw s.beginStep).led = true →
    (tickFront raw s.beginStep).ticksRemaining.toNat ≤ 1 →
    (tickFront raw s.beginStep).cfg.song[(tickFront raw s.beginStep).srcPos]? = some w →
    (∀ i, decode w = .ok i →
      step s = exec i { tickFront raw s.beginStep with
        ticksRemaining := 0
        srcPos := ((tickFront raw s.beginStep).srcPos + 1) % s.cfg.song.length
        trace := (tickFront raw s.beginStep).trace ++ [.pull w] })
    ∧ (∀ e, decode w = .error e →
      step s = .next { tickFront raw s.beginStep with
        ticksRemaining := 0
        srcPos := ((tickFront raw s.beginStep).srcPos + 1) % s.cfg.song.length
        trace := (tickFront raw s.beginStep).trace ++ [.pull w]
        halted := true, faultCode := .illegalCommand, faultWord := w })

/-- The load of log 2: the step after `withFetchWord` is `exec` of the instruction the decoder reads from the word, on
the loaded state with the tick acknowledged, the matching sample filtered and the word pulled. -/
def Obligations.LoadedWordRunsNext : Prop :=
  ∀ (s : State) (nbits w : Nat) (i : Instr), decodeTableWord nbits w = some i →
    step (s.withFetchWord nbits w) = exec i { s.withFetchWord nbits w with
      tickPending := false, eventOut := some .nothing, inbox := s.inbox, freeIndex := s.freeIndex + 1
      trace := [.ack, .pull (tableWord nbits w)] }

/-- R140: the dispatcher's turn is taken as a TICK step whenever ticks are enabled, one is pending and the block is not
halted, and no step of any turn is a TICK step otherwise; the TICK's first action is `ack`, and it leaves its firing no
longer pending. A TICK step is the one that has an event_out (R37), which State holds as log 8 says. -/
def Obligations.TickIsTakenExactlyWhenEnabled : Prop :=
  (∀ (s : State) (raw : Bool) (rest : List Event), s.typed = true → s.srcPos < s.cfg.song.length →
    s.inbox = .tick raw :: rest → s.ticksEnabled = true → s.tickPending = true → s.halted = false →
    ∃ t, step s = .next t ∧ t.eventOut ≠ none ∧ t.tickPending = false ∧ ∃ later, t.trace = .ack :: later)
  ∧ ∀ s t : State, step s = .next t → t.eventOut ≠ none →
    s.ticksEnabled = true ∧ s.tickPending = true ∧ s.halted = false
      ∧ t.tickPending = false ∧ ∃ later, t.trace = .ack :: later

/-- The model's choice of log 6 (93 section 2 calls the case stuck, "there is no step"): the dispatcher's turn while
TICK is not enabled holds the whole state. -/
def Obligations.TurnWithoutTickHoldsTheState : Prop :=
  ∀ (s : State) (raw : Bool) (rest : List Event), s.typed = true → s.inbox = .tick raw :: rest →
    s.tickEnabled = false →
    step s = .next { s with inbox := rest, freeIndex := s.freeIndex + 1, trace := [], eventOut := none }

/-- R142, R143 and R144: the toggle and what follows it, by branch, from the state `u` that acknowledging and filtering
have made. A press that turns the indicator on, or no press while it is on, goes on to ADVANCE; every other TICK ends
there. -/
def Obligations.ToggleAndAdvanceFollowTheirRules : Prop :=
  ∀ (s : State) (raw : Bool) (rest : List Event), s.typed = true → s.inbox = .tick raw :: rest →
    s.tickEnabled = true →
    let f := filterStep s.cfg raw s.dbState s.dbCount
    let u : State := { s with
      inbox := rest, freeIndex := s.freeIndex + 1, tickPending := false
      dbState := f.1, dbCount := f.2.1, eventOut := some f.2.2, trace := [.ack] }
    (f.2.2 ≠ .pressed → s.led = false → step s = .next u)
    ∧ (f.2.2 ≠ .pressed → s.led = true → step s = advance u)
    ∧ (f.2.2 = .pressed → s.led = false →
        step s = advance { u with led := true, toneMuted := false, trace := [.ack, .setLed true, .unmute] })
    ∧ (f.2.2 = .pressed → s.led = true → s.cfg.rearmPolicy = .resume →
        step s = .next { u with
          led := false, toneSounding := false, toneMuted := true
          trace := [.ack, .setLed false, .silence, .mute] })
    ∧ (f.2.2 = .pressed → s.led = true → s.cfg.rearmPolicy = .restart →
        step s = .next { u with
          led := false, toneSounding := false, toneMuted := true, srcPos := 0, ticksRemaining := 0
          trace := [.ack, .setLed false, .silence, .restart, .mute] })

/-- The end-to-end press (R150): a press while the indicator is off turns it on, unmutes, and resumes playback on the
same tick, in this order. -/
def Obligations.PressResumesPlaybackOnTheSameTick : Prop :=
  ∀ (s : State) (raw : Bool) (rest : List Event) (w : Word) (i : Instr), s.typed = true →
    s.inbox = .tick raw :: rest → s.tickEnabled = true → s.led = false → debounceEvent raw s = .pressed →
    s.ticksRemaining.toNat ≤ 1 → s.cfg.song[s.srcPos]? = some w → decode w = .ok i → i.legal = true →
    ∃ t, step s = .next t ∧ t.led = true ∧ t.toneMuted = false ∧ t.halted = false
      ∧ t.trace = [.ack, .setLed true, .unmute, .pull w] ++ commandActions i

/-- The tracked outputs are what the traced actions leave (R18, R24, R27 to R29, R149): outside RESET, `led` and the
three tone fields after a step are those before it with the step's actions applied in order. -/
def Obligations.OutputsFollowTheTrace : Prop :=
  ∀ s t : State, step s = .next t → nextEvent s ≠ some .reset →
    t.led = (t.trace.foldl outputAfter s).led
    ∧ t.toneFreq = (t.trace.foldl outputAfter s).toneFreq
    ∧ t.toneSounding = (t.trace.foldl outputAfter s).toneSounding
    ∧ t.toneMuted = (t.trace.foldl outputAfter s).toneMuted

/-! ### Host and environment events -/

/-- R146: TICK_FIRE sets `tick_pending` in every state, halted or not, pending or not, and changes nothing else. -/
def Obligations.TickFireOnlySetsPending : Prop :=
  ∀ (s : State) (rest : List Event), s.typed = true → s.inbox = .tickFire :: rest →
    step s = .next { s with
      tickPending := true, inbox := rest, freeIndex := s.freeIndex + 1, trace := [], eventOut := none }

/-- R147: ENABLE_TICKS sets `ticks_enabled`, emits no action, and does nothing while halted. -/
def Obligations.EnableTicksUnlessHalted : Prop :=
  ∀ (s : State) (rest : List Event), s.typed = true → s.inbox = .enableTicks :: rest →
    (s.halted = false → step s = .next { s with
      ticksEnabled := true, inbox := rest, freeIndex := s.freeIndex + 1, trace := [], eventOut := none })
    ∧ (s.halted = true → step s = .next { s with
      inbox := rest, freeIndex := s.freeIndex + 1, trace := [], eventOut := none })

/-- R161, R162, R164 and R166: FATAL enters its fault with its code and word 0 and changes nothing else; in a halted
state the first fault is kept. Fault entry is the same for every code and word. -/
def Obligations.FaultEntryKeepsTheFirstFault : Prop :=
  (∀ (k : FaultCode) (w : Word) (s : State),
    (s.halted = false → raiseFault k w s = { s with halted := true, faultCode := k, faultWord := w })
    ∧ (s.halted = true → raiseFault k w s = s))
  ∧ ∀ (s : State) (kind : FatalKind) (rest : List Event), s.typed = true → s.inbox = .fatal kind :: rest →
    (s.halted = false → step s = .next { s with
      halted := true
      faultCode := (match kind with
        | .hardFault => FaultCode.hardFault
        | .unexpectedInterrupt => FaultCode.unexpectedInterrupt)
      faultWord := 0, inbox := rest, freeIndex := s.freeIndex + 1, trace := [], eventOut := none })
    ∧ (s.halted = true → step s = .next { s with
      inbox := rest, freeIndex := s.freeIndex + 1, trace := [], eventOut := none })

/-- R180: RESET, in every state, halted too, installs every reset value of R41 and emits no action. -/
def Obligations.ResetInstallsTheResetValues : Prop :=
  ∀ (s : State) (rest : List Event), s.typed = true → s.inbox = .reset :: rest →
    ∃ t, step s = .next t
      ∧ t.dbState = s.cfg.initialState ∧ t.dbCount = 0 ∧ t.led = false ∧ t.ticksRemaining = 0 ∧ t.toneFreq = 0
      ∧ t.toneSounding = false ∧ t.toneMuted = true ∧ t.tickPending = false ∧ t.ticksEnabled = false
      ∧ t.halted = false ∧ t.faultCode = .none ∧ t.faultWord = 0 ∧ t.srcPos = 0
      ∧ t.trace = []

/-- What RESET leaves: the configuration, fixed for the run (R39), and, by the model's choice of log 19, the turns that
wait behind it and the free-value counter, which only counts this step; it is no TICK and has no event_out (R37). -/
def Obligations.ResetKeepsConfigurationAndTurns : Prop :=
  ∀ (s : State) (rest : List Event), s.typed = true → s.inbox = .reset :: rest →
    ∃ t, step s = .next t ∧ t.cfg = s.cfg ∧ t.inbox = rest ∧ t.freeIndex = s.freeIndex + 1 ∧ t.eventOut = none

/-- What reset leaves (R41, R8, and the defaults of R7, R9, R12, R13): the block's fields at their reset values; a
non-empty SONG (R11), whose content is open (log 1); no turn waiting, the model's own reset value of log 3; and no output
of an earlier step (log 8). -/
def Obligations.ResetStateHoldsTheResetValues : Prop :=
  State.reset.dbState = .asserted ∧ State.reset.dbCount = 0 ∧ State.reset.led = false
  ∧ State.reset.ticksRemaining = 0 ∧ State.reset.toneFreq = 0 ∧ State.reset.toneSounding = false
  ∧ State.reset.toneMuted = true ∧ State.reset.tickPending = false ∧ State.reset.ticksEnabled = false
  ∧ State.reset.halted = false ∧ State.reset.faultCode = .none ∧ State.reset.faultWord = 0
  ∧ State.reset.srcPos = 0 ∧ State.reset.cfg.threshold = 30 ∧ State.reset.cfg.assertedLevel = true
  ∧ State.reset.cfg.rearmPolicy = .resume ∧ State.reset.cfg.tickPeriodUs = 1000
  ∧ State.reset.cfg.song ≠ [] ∧ State.reset.typed = true ∧ State.reset.audible = false
  ∧ State.reset.inbox = [] ∧ State.reset.trace = [] ∧ State.reset.eventOut = none

/-- R145: outside the TICK step and RESET, no field of the filter, the sequencer, the outputs or the command source
changes, and no action is emitted; ENABLE_TICKS and TICK_FIRE reach only their own flags, `ticks_enabled` and
`tick_pending`, and only a FATAL reaches the fault fields. -/
def Obligations.OnlyTickMovesTheStateMachines : Prop :=
  ∀ s t : State, step s = .next t → nextEvent s ≠ some .reset →
    (∀ e, nextEvent s = some e → eventAgent e ≠ .dispatcher) →
    t.dbState = s.dbState ∧ t.dbCount = s.dbCount ∧ t.led = s.led ∧ t.ticksRemaining = s.ticksRemaining
    ∧ t.toneFreq = s.toneFreq ∧ t.toneSounding = s.toneSounding ∧ t.toneMuted = s.toneMuted
    ∧ t.srcPos = s.srcPos ∧ t.trace = [] ∧ t.eventOut = none
    ∧ (t.ticksEnabled ≠ s.ticksEnabled → nextEvent s = some .enableTicks)
    ∧ (t.tickPending ≠ s.tickPending → nextEvent s = some .tickFire)
    ∧ (t.halted ≠ s.halted ∨ t.faultCode ≠ s.faultCode ∨ t.faultWord ≠ s.faultWord →
        ∃ k, nextEvent s = some (.fatal k))

/-- R32 and R31: `ticks_enabled` is set only by ENABLE_TICKS and cleared only by RESET; `tick_pending` is set only by
TICK_FIRE, and cleared only by RESET and by a TICK step. -/
def Obligations.TickFlagsMoveOnlyByTheirEvents : Prop :=
  ∀ s t : State, step s = .next t →
    (s.ticksEnabled = true → t.ticksEnabled = false → nextEvent s = some .reset)
    ∧ (s.ticksEnabled = false → t.ticksEnabled = true → nextEvent s = some .enableTicks)
    ∧ (s.tickPending = false → t.tickPending = true → nextEvent s = some .tickFire)
    ∧ (s.tickPending = true → t.tickPending = false →
        nextEvent s = some .reset ∨ ∃ raw, nextEvent s = some (.tick raw) ∧ s.tickEnabled = true)

/-- R186: no TICK step is taken before ENABLE_TICKS. From any state in which `ticks_enabled` is 0, a step emits no
action, has no event_out and, unless it is ENABLE_TICKS, leaves `ticks_enabled` at 0; and in a run from reset the same
holds of every step up to ENABLE_TICKS, whatever turns come after. -/
def Obligations.NoTickBeforeEnable : Prop :=
  (∀ s t : State, s.ticksEnabled = false → step s = .next t →
    t.trace = [] ∧ t.eventOut = none ∧ (nextEvent s ≠ some .enableTicks → t.ticksEnabled = false))
  ∧ ∀ (cfg : Config) (turns : List Event) (n : Nat) (t : State), .enableTicks ∉ turns.take n →
    Sys2Proof.core.run n (State.boot cfg turns) = .next t →
    t.ticksEnabled = false ∧ t.trace = [] ∧ t.eventOut = none

/-- Start-up failure (R183): as long as a bring-up has not taken ENABLE_TICKS there is no TICK step, and apart from a
pending firing and a fault the block stays in its reset state; so for ever if it never takes it. -/
def Obligations.BringUpWithoutEnableStaysInReset : Prop :=
  ∀ (cfg : Config) (turns : List Event) (n : Nat) (t : State), .enableTicks ∉ turns.take n →
    Sys2Proof.core.run n (State.boot cfg turns) = .next t →
    t.ticksEnabled = false ∧ t.trace = [] ∧ t.eventOut = none ∧ t.dbState = cfg.initialState ∧ t.dbCount = 0
    ∧ t.led = false ∧ t.ticksRemaining = 0 ∧ t.toneFreq = 0 ∧ t.toneSounding = false ∧ t.toneMuted = true
    ∧ t.srcPos = 0

/-- The model's choice of logs 4 and 5, from R167 and R38: with no turn waiting, an enabled TICK is taken with the free
input level, whatever that is. -/
def Obligations.EnabledTickIsTakenWithAFreeSample : Prop :=
  ∀ s : State, s.typed = true → s.inbox = [] → s.tickEnabled = true → s.srcPos < s.cfg.song.length →
    ∃ t, step s = .next t ∧ step s = tick (Config.inputLevel s.freeIndex) s.beginStep
      ∧ t.tickPending = false ∧ t.eventOut = some (debounceEvent (Config.inputLevel s.freeIndex) s)

/-- Coincident events (R168): their ranks are 1 RESET, 2 HARD_FAULT, 3 UNEXPECTED_INTERRUPT, 4 TICK, 5 TICK_FIRE,
6 ENABLE_TICKS; they are put in that order, none lost and none added, and join the turns that waited, behind them (log
15, DEDUCED from R168); a FATAL at the same instant as a pending tick is taken first, and the tick is then not taken:
the turn it had holds the state, a next state by the model's choice of log 6. -/
def Obligations.CoincidentEventsAreOrdered : Prop :=
  (eventPriority .reset = 1 ∧ eventPriority (.fatal .hardFault) = 2
    ∧ eventPriority (.fatal .unexpectedInterrupt) = 3 ∧ (∀ raw, eventPriority (.tick raw) = 4)
    ∧ eventPriority .tickFire = 5 ∧ eventPriority .enableTicks = 6)
  ∧ (∀ es : List Event, (byPriority es).Perm es
    ∧ (byPriority es).Pairwise (fun a b => eventPriority a ≤ eventPriority b))
  ∧ (∀ (s : State) (es : List Event), s.arrive es = { s with inbox := s.inbox ++ byPriority es })
  ∧ ∀ (s : State) (raw : Bool) (kind : FatalKind), s.typed = true → s.inbox = [] → s.halted = false →
    ∃ t u, step (s.arrive [.tick raw, .fatal kind]) = .next t ∧ t.halted = true
      ∧ step t = .next u ∧ u.trace = [] ∧ u.eventOut = none ∧ u.tickPending = s.tickPending
      ∧ u.dbCount = s.dbCount

/-- The observation of a run (R18): every step that is taken is observed, in its place, as its event of R17, its action
trace and the state after it, and nothing else is: a turn without TICK (log 6) and an idle step (log 17) are not
observed, what follows them is. So each observed TICK has an event_out and begins with `ack`, and every other observed
step emits nothing and has no event_out. The trace and event_out are read from State (log 8). -/
def Obligations.ObservationIsTheStepsTaken : Prop :=
  (∀ (n : Nat) (s t : State) (e : Event), step s = .next t → eventTaken s = some e →
    observe (n + 1) s = (e, t.trace, t) :: observe n t)
  ∧ (∀ (n : Nat) (s : State) (e : Event) (actions : List Action) (t : State), (e, actions, t) ∈ observe n s →
    actions = t.trace
    ∧ ((∃ raw, e = .tick raw) → t.eventOut ≠ none ∧ ∃ later, actions = .ack :: later)
    ∧ ((∀ raw, e ≠ .tick raw) → t.eventOut = none ∧ actions = []))
  ∧ (∀ (n : Nat) (s : State) (raw : Bool) (rest : List Event), s.typed = true → s.inbox = .tick raw :: rest →
      s.tickEnabled = false →
      observe (n + 1) s
        = observe n { s with inbox := rest, freeIndex := s.freeIndex + 1, trace := [], eventOut := none })
  ∧ ∀ (n : Nat) (s : State), s.typed = true → s.inbox = [] → s.tickEnabled = false → s.halted = false →
      observe (n + 1) s = observe n { s with freeIndex := s.freeIndex + 1, trace := [], eventOut := none }

/-! ### Faults and the whole machine -/

/-- R165: while halted, a step other than RESET changes at most `tick_pending`, and that only by TICK_FIRE; the block
stays halted with its first fault; RESET leaves the halted state. -/
def Obligations.HaltedHoldsUntilReset : Prop :=
  ∀ s t : State, s.halted = true → step s = .next t →
    (nextEvent s = some .reset → t.halted = false)
    ∧ (nextEvent s ≠ some .reset →
      t = { s with
        tickPending := (if nextEvent s = some .tickFire then true else s.tickPending)
        inbox := s.inbox.tail, freeIndex := s.freeIndex + 1, trace := [], eventOut := none })

/-- The model's choice of log 7, from R165 ("a model treats it as a fault outcome"): a halted block with no turn
waiting answers the fault of its code. With a turn waiting it answers a next state, with a TICK turn by the model's
choice of log 6. -/
def Obligations.HaltedWithNoTurnIsAFault : Prop :=
  ∀ s : State, s.typed = true → s.halted = true →
    (step s = .fault (.halted s.faultCode) ↔ s.inbox = [])
    ∧ (s.inbox ≠ [] → ∃ t, step s = .next t)

/-- R163 and 60_exceptions.md section 1: the block goes into the halted state only by FATAL, with its code and word 0,
or in a TICK that pulled an illegal word, with code 3 and that word. -/
def Obligations.OnlyFatalOrAnIllegalWordHalts : Prop :=
  ∀ s t : State, step s = .next t → s.halted = false → t.halted = true →
    (∃ k, nextEvent s = some (.fatal k) ∧ t.faultCode = fatalCode k ∧ t.faultWord = 0)
    ∨ ∃ raw w, nextEvent s = some (.tick raw) ∧ t.led = true ∧ .pull w ∈ t.trace ∧ legalWord w = false
        ∧ t.faultCode = .illegalCommand ∧ t.faultWord = w ∧ t.ticksRemaining = 0

/-- R58: no event writes SONG, nor any other configuration item, at any step of a run; and the word that a step of the
run pulls is the one that SONG, as it stood at the start of the run, has at the position of the pull. -/
def Obligations.ConfigurationIsFixed : Prop :=
  ∀ (n : Nat) (s u t : State), Sys2Proof.core.run n s = .next u → step u = .next t →
    t.cfg = s.cfg ∧ ∀ w, .pull w ∈ t.trace → s.cfg.song[u.srcPos]? = some w

/-- States that have no step: a configuration outside its legal values is refused (R39 and its row in 93 section 2; in
State and in the step as log 9 says), and no next state follows `db_count` at or above THRESHOLD (R40; log 10,
DEDUCED). -/
def Obligations.IllegalConfigurationHasNoRun : Prop :=
  (∀ s : State, s.cfg.threshold = 0 ∨ s.cfg.song = [] ∨ s.cfg.tickPeriodUs = 0 →
      step s = .refused .illegalConfiguration)
  ∧ ∀ s : State, s.cfg.threshold.toNat ≤ s.dbCount.toNat → ∀ t, step s ≠ .next t

/-- The invariants of 10_state.md section 10 (R40) hold right after reset, under every legal configuration. -/
def Obligations.ResetMeetsTheInvariants : Prop :=
  State.reset.Inv
  ∧ ∀ (cfg : Config) (turns : List Event), configLegal cfg = true → (State.boot cfg turns).Inv

/-- Every step keeps the six invariants of 10_state.md section 10 (R40), from every state that meets them. -/
def Obligations.StepKeepsTheInvariants : Prop :=
  ∀ s t : State, s.Inv → step s = .next t → t.Inv

/-- Every reachable state meets the six invariants (R40) and carries the configuration the run began with (R39),
whatever turns were waiting at the start or joined later. -/
def Obligations.ReachableStatesMeetTheInvariants : Prop :=
  ∀ (cfg : Config) (s : State), configLegal cfg = true → Reachable cfg s → s.Inv ∧ s.cfg = cfg

/-- No run of a legal SONG without a FATAL ever halts, faults, blocks or is refused: from every state that meets the
invariants and is not halted, `n` steps of the model answer a next state and none of them halts (R165, R188,
41_sequencer.md section 2). Among the `n` are turns in which the model holds the state and no event of R17 is taken: a
TICK turn while TICK is not enabled, a next state by the model's choice of log 6, and an idle step (log 17). -/
def Obligations.LegalSongRunsWithoutFault : Prop :=
  ∀ (n : Nat) (s : State), s.Inv → configLegal s.cfg = true → s.halted = false →
    (∀ w ∈ s.cfg.song, legalWord w = true) → (∀ k, .fatal k ∉ s.inbox) → runsWithoutFault n s

/-! ### The textual syntax -/

/-- The words of the assembler's lines (30_encoding.md section 4, the table of R77): each line of one command gives
its word, by number, exactly when its operands are in range, and is an error otherwise. -/
def Obligations.AssembledLinesGiveTheirWords : Prop :=
  (∀ p, (1 ≤ p ∧ p ≤ 65535 → ∃ w : Word, assembleLine (.beginNote p) = some [w] ∧ w.toNat = 0x20000000 + p)
    ∧ (¬ (1 ≤ p ∧ p ≤ 65535) → assembleLine (.beginNote p) = none))
  ∧ (∀ p d, (1 ≤ p ∧ p ≤ 65535 ∧ 1 ≤ d ∧ d ≤ 8191 →
        ∃ w : Word, assembleLine (.note p d) = some [w] ∧ w.toNat = 0x60000000 + d * 65536 + p)
    ∧ (¬ (1 ≤ p ∧ p ≤ 65535 ∧ 1 ≤ d ∧ d ≤ 8191) → assembleLine (.note p d) = none))
  ∧ (∀ d, (1 ≤ d ∧ d ≤ 8191 → ∃ w : Word, assembleLine (.rest d) = some [w] ∧ w.toNat = 0x80000000 + d * 65536)
    ∧ (¬ (1 ≤ d ∧ d ≤ 8191) → assembleLine (.rest d) = none))
  ∧ (∀ v, v < 2 ^ 32 → ∃ w : Word, assembleLine (.word v) = some [w] ∧ w.toNat = v)
  ∧ (∃ w : Word, assembleLine .wait = some [w] ∧ w.toNat = 0)
  ∧ (∃ w : Word, assembleLine .endNote = some [w] ∧ w.toNat = 0x40000000)

/-- `.word` is the only way to write an illegal word (30_encoding.md section 4, R77): a stream without it assembles to
legal words only, and a line of FNOTE, FREST, NOTE or REST owns its duration in ticks (R78). -/
def Obligations.AssembledStreamsAreLegal : Prop :=
  (∀ (lines : List AsmLine) (words : List Word), assemble lines = some words → (∀ v, .word v ∉ lines) →
    ∀ w ∈ words, legalWord w = true)
  ∧ (∀ p d ws, assembleLine (.fnote p d) = some ws → songTicks ws = d)
  ∧ (∀ d ws, assembleLine (.frest d) = some ws → songTicks ws = d)
  ∧ (∀ p d ws, assembleLine (.note p d) = some ws → songTicks ws = d)
  ∧ (∀ d ws, assembleLine (.rest d) = some ws → songTicks ws = d)
  ∧ ∀ n ws, assembleLine (.waitn n) = some ws → songTicks ws = n

/-- The pseudo-instructions (R78): with operands in range, `FNOTE p, d` gives the word of `BEGIN_NOTE p` and `d - 1`
words of WAIT, `FREST d` the word of END_NOTE and `d - 1` words of WAIT, and `WAITN n` gives `n` words of WAIT, none for
`WAITN 0`; outside R78's `1 <= d` and R77's range of a pitch there is no expansion. In a stream the words of the lines
follow each other in order (R77). -/
def Obligations.PseudoInstructionsExpand : Prop :=
  (∀ p d, 1 ≤ p ∧ p ≤ 65535 → 1 ≤ d →
    ∃ w : Word, assembleLine (.fnote p d) = some (w :: List.replicate (d - 1) 0x00000000#32)
      ∧ w.toNat = 0x20000000 + p)
  ∧ (∀ p d, ¬ (1 ≤ p ∧ p ≤ 65535) ∨ d = 0 → assembleLine (.fnote p d) = none)
  ∧ (∀ d, 1 ≤ d → assembleLine (.frest d) = some (0x40000000#32 :: List.replicate (d - 1) 0x00000000#32))
  ∧ assembleLine (.frest 0) = none
  ∧ (∀ n, assembleLine (.waitn n) = some (List.replicate n 0x00000000#32))
  ∧ ∀ (ls ms : List AsmLine) (ws vs : List Word), assemble ls = some ws → assemble ms = some vs →
      assemble (ls ++ ms) = some (ws ++ vs)
end

