-- ==== Sys2Proof/Laws/State.lean ====
section
/-! SUPPORT. What each update of State leaves in each field: one lemma per field per update, so that no proof unfolds
a record update. -/

namespace Sys2Proof.Machine

/-! ### emit -/

@[simp] theorem State.emit_cfg (s : State) (a : Action) : (s.emit a).cfg = s.cfg := rfl
@[simp] theorem State.emit_dbState (s : State) (a : Action) : (s.emit a).dbState = s.dbState := rfl
@[simp] theorem State.emit_dbCount (s : State) (a : Action) : (s.emit a).dbCount = s.dbCount := rfl
@[simp] theorem State.emit_led (s : State) (a : Action) : (s.emit a).led = s.led := rfl
@[simp] theorem State.emit_ticksRemaining (s : State) (a : Action) : (s.emit a).ticksRemaining = s.ticksRemaining := rfl
@[simp] theorem State.emit_toneFreq (s : State) (a : Action) : (s.emit a).toneFreq = s.toneFreq := rfl
@[simp] theorem State.emit_toneSounding (s : State) (a : Action) : (s.emit a).toneSounding = s.toneSounding := rfl
@[simp] theorem State.emit_toneMuted (s : State) (a : Action) : (s.emit a).toneMuted = s.toneMuted := rfl
@[simp] theorem State.emit_tickPending (s : State) (a : Action) : (s.emit a).tickPending = s.tickPending := rfl
@[simp] theorem State.emit_ticksEnabled (s : State) (a : Action) : (s.emit a).ticksEnabled = s.ticksEnabled := rfl
@[simp] theorem State.emit_halted (s : State) (a : Action) : (s.emit a).halted = s.halted := rfl
@[simp] theorem State.emit_faultCode (s : State) (a : Action) : (s.emit a).faultCode = s.faultCode := rfl
@[simp] theorem State.emit_faultWord (s : State) (a : Action) : (s.emit a).faultWord = s.faultWord := rfl
@[simp] theorem State.emit_srcPos (s : State) (a : Action) : (s.emit a).srcPos = s.srcPos := rfl
@[simp] theorem State.emit_trace (s : State) (a : Action) : (s.emit a).trace = s.trace ++ [a] := rfl
@[simp] theorem State.emit_eventOut (s : State) (a : Action) : (s.emit a).eventOut = s.eventOut := rfl
@[simp] theorem State.emit_inbox (s : State) (a : Action) : (s.emit a).inbox = s.inbox := rfl
@[simp] theorem State.emit_freeIndex (s : State) (a : Action) : (s.emit a).freeIndex = s.freeIndex := rfl

/-! ### ackTick -/

@[simp] theorem State.ackTick_cfg (s : State) : (s.ackTick).cfg = s.cfg := rfl
@[simp] theorem State.ackTick_dbState (s : State) : (s.ackTick).dbState = s.dbState := rfl
@[simp] theorem State.ackTick_dbCount (s : State) : (s.ackTick).dbCount = s.dbCount := rfl
@[simp] theorem State.ackTick_led (s : State) : (s.ackTick).led = s.led := rfl
@[simp] theorem State.ackTick_ticksRemaining (s : State) : (s.ackTick).ticksRemaining = s.ticksRemaining := rfl
@[simp] theorem State.ackTick_toneFreq (s : State) : (s.ackTick).toneFreq = s.toneFreq := rfl
@[simp] theorem State.ackTick_toneSounding (s : State) : (s.ackTick).toneSounding = s.toneSounding := rfl
@[simp] theorem State.ackTick_toneMuted (s : State) : (s.ackTick).toneMuted = s.toneMuted := rfl
@[simp] theorem State.ackTick_tickPending (s : State) : (s.ackTick).tickPending = false := rfl
@[simp] theorem State.ackTick_ticksEnabled (s : State) : (s.ackTick).ticksEnabled = s.ticksEnabled := rfl
@[simp] theorem State.ackTick_halted (s : State) : (s.ackTick).halted = s.halted := rfl
@[simp] theorem State.ackTick_faultCode (s : State) : (s.ackTick).faultCode = s.faultCode := rfl
@[simp] theorem State.ackTick_faultWord (s : State) : (s.ackTick).faultWord = s.faultWord := rfl
@[simp] theorem State.ackTick_srcPos (s : State) : (s.ackTick).srcPos = s.srcPos := rfl
@[simp] theorem State.ackTick_trace (s : State) : (s.ackTick).trace = s.trace ++ [.ack] := rfl
@[simp] theorem State.ackTick_eventOut (s : State) : (s.ackTick).eventOut = s.eventOut := rfl
@[simp] theorem State.ackTick_inbox (s : State) : (s.ackTick).inbox = s.inbox := rfl
@[simp] theorem State.ackTick_freeIndex (s : State) : (s.ackTick).freeIndex = s.freeIndex := rfl

/-! ### setLed -/

@[simp] theorem State.setLed_cfg (s : State) (b : Bool) : (s.setLed b).cfg = s.cfg := rfl
@[simp] theorem State.setLed_dbState (s : State) (b : Bool) : (s.setLed b).dbState = s.dbState := rfl
@[simp] theorem State.setLed_dbCount (s : State) (b : Bool) : (s.setLed b).dbCount = s.dbCount := rfl
@[simp] theorem State.setLed_led (s : State) (b : Bool) : (s.setLed b).led = b := rfl
@[simp] theorem State.setLed_ticksRemaining (s : State) (b : Bool) : (s.setLed b).ticksRemaining = s.ticksRemaining := rfl
@[simp] theorem State.setLed_toneFreq (s : State) (b : Bool) : (s.setLed b).toneFreq = s.toneFreq := rfl
@[simp] theorem State.setLed_toneSounding (s : State) (b : Bool) : (s.setLed b).toneSounding = s.toneSounding := rfl
@[simp] theorem State.setLed_toneMuted (s : State) (b : Bool) : (s.setLed b).toneMuted = s.toneMuted := rfl
@[simp] theorem State.setLed_tickPending (s : State) (b : Bool) : (s.setLed b).tickPending = s.tickPending := rfl
@[simp] theorem State.setLed_ticksEnabled (s : State) (b : Bool) : (s.setLed b).ticksEnabled = s.ticksEnabled := rfl
@[simp] theorem State.setLed_halted (s : State) (b : Bool) : (s.setLed b).halted = s.halted := rfl
@[simp] theorem State.setLed_faultCode (s : State) (b : Bool) : (s.setLed b).faultCode = s.faultCode := rfl
@[simp] theorem State.setLed_faultWord (s : State) (b : Bool) : (s.setLed b).faultWord = s.faultWord := rfl
@[simp] theorem State.setLed_srcPos (s : State) (b : Bool) : (s.setLed b).srcPos = s.srcPos := rfl
@[simp] theorem State.setLed_trace (s : State) (b : Bool) : (s.setLed b).trace = s.trace ++ [.setLed b] := rfl
@[simp] theorem State.setLed_eventOut (s : State) (b : Bool) : (s.setLed b).eventOut = s.eventOut := rfl
@[simp] theorem State.setLed_inbox (s : State) (b : Bool) : (s.setLed b).inbox = s.inbox := rfl
@[simp] theorem State.setLed_freeIndex (s : State) (b : Bool) : (s.setLed b).freeIndex = s.freeIndex := rfl

/-! ### play -/

@[simp] theorem State.play_cfg (s : State) (f : Pitch) : (s.play f).cfg = s.cfg := rfl
@[simp] theorem State.play_dbState (s : State) (f : Pitch) : (s.play f).dbState = s.dbState := rfl
@[simp] theorem State.play_dbCount (s : State) (f : Pitch) : (s.play f).dbCount = s.dbCount := rfl
@[simp] theorem State.play_led (s : State) (f : Pitch) : (s.play f).led = s.led := rfl
@[simp] theorem State.play_ticksRemaining (s : State) (f : Pitch) : (s.play f).ticksRemaining = s.ticksRemaining := rfl
@[simp] theorem State.play_toneFreq (s : State) (f : Pitch) : (s.play f).toneFreq = f := rfl
@[simp] theorem State.play_toneSounding (s : State) (f : Pitch) : (s.play f).toneSounding = true := rfl
@[simp] theorem State.play_toneMuted (s : State) (f : Pitch) : (s.play f).toneMuted = s.toneMuted := rfl
@[simp] theorem State.play_tickPending (s : State) (f : Pitch) : (s.play f).tickPending = s.tickPending := rfl
@[simp] theorem State.play_ticksEnabled (s : State) (f : Pitch) : (s.play f).ticksEnabled = s.ticksEnabled := rfl
@[simp] theorem State.play_halted (s : State) (f : Pitch) : (s.play f).halted = s.halted := rfl
@[simp] theorem State.play_faultCode (s : State) (f : Pitch) : (s.play f).faultCode = s.faultCode := rfl
@[simp] theorem State.play_faultWord (s : State) (f : Pitch) : (s.play f).faultWord = s.faultWord := rfl
@[simp] theorem State.play_srcPos (s : State) (f : Pitch) : (s.play f).srcPos = s.srcPos := rfl
@[simp] theorem State.play_trace (s : State) (f : Pitch) : (s.play f).trace = s.trace ++ [.play f] := rfl
@[simp] theorem State.play_eventOut (s : State) (f : Pitch) : (s.play f).eventOut = s.eventOut := rfl
@[simp] theorem State.play_inbox (s : State) (f : Pitch) : (s.play f).inbox = s.inbox := rfl
@[simp] theorem State.play_freeIndex (s : State) (f : Pitch) : (s.play f).freeIndex = s.freeIndex := rfl

/-! ### silence -/

@[simp] theorem State.silence_cfg (s : State) : (s.silence).cfg = s.cfg := rfl
@[simp] theorem State.silence_dbState (s : State) : (s.silence).dbState = s.dbState := rfl
@[simp] theorem State.silence_dbCount (s : State) : (s.silence).dbCount = s.dbCount := rfl
@[simp] theorem State.silence_led (s : State) : (s.silence).led = s.led := rfl
@[simp] theorem State.silence_ticksRemaining (s : State) : (s.silence).ticksRemaining = s.ticksRemaining := rfl
@[simp] theorem State.silence_toneFreq (s : State) : (s.silence).toneFreq = s.toneFreq := rfl
@[simp] theorem State.silence_toneSounding (s : State) : (s.silence).toneSounding = false := rfl
@[simp] theorem State.silence_toneMuted (s : State) : (s.silence).toneMuted = s.toneMuted := rfl
@[simp] theorem State.silence_tickPending (s : State) : (s.silence).tickPending = s.tickPending := rfl
@[simp] theorem State.silence_ticksEnabled (s : State) : (s.silence).ticksEnabled = s.ticksEnabled := rfl
@[simp] theorem State.silence_halted (s : State) : (s.silence).halted = s.halted := rfl
@[simp] theorem State.silence_faultCode (s : State) : (s.silence).faultCode = s.faultCode := rfl
@[simp] theorem State.silence_faultWord (s : State) : (s.silence).faultWord = s.faultWord := rfl
@[simp] theorem State.silence_srcPos (s : State) : (s.silence).srcPos = s.srcPos := rfl
@[simp] theorem State.silence_trace (s : State) : (s.silence).trace = s.trace ++ [.silence] := rfl
@[simp] theorem State.silence_eventOut (s : State) : (s.silence).eventOut = s.eventOut := rfl
@[simp] theorem State.silence_inbox (s : State) : (s.silence).inbox = s.inbox := rfl
@[simp] theorem State.silence_freeIndex (s : State) : (s.silence).freeIndex = s.freeIndex := rfl

/-! ### mute -/

@[simp] theorem State.mute_cfg (s : State) : (s.mute).cfg = s.cfg := rfl
@[simp] theorem State.mute_dbState (s : State) : (s.mute).dbState = s.dbState := rfl
@[simp] theorem State.mute_dbCount (s : State) : (s.mute).dbCount = s.dbCount := rfl
@[simp] theorem State.mute_led (s : State) : (s.mute).led = s.led := rfl
@[simp] theorem State.mute_ticksRemaining (s : State) : (s.mute).ticksRemaining = s.ticksRemaining := rfl
@[simp] theorem State.mute_toneFreq (s : State) : (s.mute).toneFreq = s.toneFreq := rfl
@[simp] theorem State.mute_toneSounding (s : State) : (s.mute).toneSounding = s.toneSounding := rfl
@[simp] theorem State.mute_toneMuted (s : State) : (s.mute).toneMuted = true := rfl
@[simp] theorem State.mute_tickPending (s : State) : (s.mute).tickPending = s.tickPending := rfl
@[simp] theorem State.mute_ticksEnabled (s : State) : (s.mute).ticksEnabled = s.ticksEnabled := rfl
@[simp] theorem State.mute_halted (s : State) : (s.mute).halted = s.halted := rfl
@[simp] theorem State.mute_faultCode (s : State) : (s.mute).faultCode = s.faultCode := rfl
@[simp] theorem State.mute_faultWord (s : State) : (s.mute).faultWord = s.faultWord := rfl
@[simp] theorem State.mute_srcPos (s : State) : (s.mute).srcPos = s.srcPos := rfl
@[simp] theorem State.mute_trace (s : State) : (s.mute).trace = s.trace ++ [.mute] := rfl
@[simp] theorem State.mute_eventOut (s : State) : (s.mute).eventOut = s.eventOut := rfl
@[simp] theorem State.mute_inbox (s : State) : (s.mute).inbox = s.inbox := rfl
@[simp] theorem State.mute_freeIndex (s : State) : (s.mute).freeIndex = s.freeIndex := rfl

/-! ### unmute -/

@[simp] theorem State.unmute_cfg (s : State) : (s.unmute).cfg = s.cfg := rfl
@[simp] theorem State.unmute_dbState (s : State) : (s.unmute).dbState = s.dbState := rfl
@[simp] theorem State.unmute_dbCount (s : State) : (s.unmute).dbCount = s.dbCount := rfl
@[simp] theorem State.unmute_led (s : State) : (s.unmute).led = s.led := rfl
@[simp] theorem State.unmute_ticksRemaining (s : State) : (s.unmute).ticksRemaining = s.ticksRemaining := rfl
@[simp] theorem State.unmute_toneFreq (s : State) : (s.unmute).toneFreq = s.toneFreq := rfl
@[simp] theorem State.unmute_toneSounding (s : State) : (s.unmute).toneSounding = s.toneSounding := rfl
@[simp] theorem State.unmute_toneMuted (s : State) : (s.unmute).toneMuted = false := rfl
@[simp] theorem State.unmute_tickPending (s : State) : (s.unmute).tickPending = s.tickPending := rfl
@[simp] theorem State.unmute_ticksEnabled (s : State) : (s.unmute).ticksEnabled = s.ticksEnabled := rfl
@[simp] theorem State.unmute_halted (s : State) : (s.unmute).halted = s.halted := rfl
@[simp] theorem State.unmute_faultCode (s : State) : (s.unmute).faultCode = s.faultCode := rfl
@[simp] theorem State.unmute_faultWord (s : State) : (s.unmute).faultWord = s.faultWord := rfl
@[simp] theorem State.unmute_srcPos (s : State) : (s.unmute).srcPos = s.srcPos := rfl
@[simp] theorem State.unmute_trace (s : State) : (s.unmute).trace = s.trace ++ [.unmute] := rfl
@[simp] theorem State.unmute_eventOut (s : State) : (s.unmute).eventOut = s.eventOut := rfl
@[simp] theorem State.unmute_inbox (s : State) : (s.unmute).inbox = s.inbox := rfl
@[simp] theorem State.unmute_freeIndex (s : State) : (s.unmute).freeIndex = s.freeIndex := rfl

/-! ### setTicksRemaining -/

@[simp] theorem State.setTicksRemaining_cfg (s : State) (d : Dur) : (s.setTicksRemaining d).cfg = s.cfg := rfl
@[simp] theorem State.setTicksRemaining_dbState (s : State) (d : Dur) : (s.setTicksRemaining d).dbState = s.dbState := rfl
@[simp] theorem State.setTicksRemaining_dbCount (s : State) (d : Dur) : (s.setTicksRemaining d).dbCount = s.dbCount := rfl
@[simp] theorem State.setTicksRemaining_led (s : State) (d : Dur) : (s.setTicksRemaining d).led = s.led := rfl
@[simp] theorem State.setTicksRemaining_ticksRemaining (s : State) (d : Dur) : (s.setTicksRemaining d).ticksRemaining = d := rfl
@[simp] theorem State.setTicksRemaining_toneFreq (s : State) (d : Dur) : (s.setTicksRemaining d).toneFreq = s.toneFreq := rfl
@[simp] theorem State.setTicksRemaining_toneSounding (s : State) (d : Dur) : (s.setTicksRemaining d).toneSounding = s.toneSounding := rfl
@[simp] theorem State.setTicksRemaining_toneMuted (s : State) (d : Dur) : (s.setTicksRemaining d).toneMuted = s.toneMuted := rfl
@[simp] theorem State.setTicksRemaining_tickPending (s : State) (d : Dur) : (s.setTicksRemaining d).tickPending = s.tickPending := rfl
@[simp] theorem State.setTicksRemaining_ticksEnabled (s : State) (d : Dur) : (s.setTicksRemaining d).ticksEnabled = s.ticksEnabled := rfl
@[simp] theorem State.setTicksRemaining_halted (s : State) (d : Dur) : (s.setTicksRemaining d).halted = s.halted := rfl
@[simp] theorem State.setTicksRemaining_faultCode (s : State) (d : Dur) : (s.setTicksRemaining d).faultCode = s.faultCode := rfl
@[simp] theorem State.setTicksRemaining_faultWord (s : State) (d : Dur) : (s.setTicksRemaining d).faultWord = s.faultWord := rfl
@[simp] theorem State.setTicksRemaining_srcPos (s : State) (d : Dur) : (s.setTicksRemaining d).srcPos = s.srcPos := rfl
@[simp] theorem State.setTicksRemaining_trace (s : State) (d : Dur) : (s.setTicksRemaining d).trace = s.trace := rfl
@[simp] theorem State.setTicksRemaining_eventOut (s : State) (d : Dur) : (s.setTicksRemaining d).eventOut = s.eventOut := rfl
@[simp] theorem State.setTicksRemaining_inbox (s : State) (d : Dur) : (s.setTicksRemaining d).inbox = s.inbox := rfl
@[simp] theorem State.setTicksRemaining_freeIndex (s : State) (d : Dur) : (s.setTicksRemaining d).freeIndex = s.freeIndex := rfl

/-! ### consumeWord -/

@[simp] theorem State.consumeWord_cfg (s : State) (w : Word) : (s.consumeWord w).cfg = s.cfg := rfl
@[simp] theorem State.consumeWord_dbState (s : State) (w : Word) : (s.consumeWord w).dbState = s.dbState := rfl
@[simp] theorem State.consumeWord_dbCount (s : State) (w : Word) : (s.consumeWord w).dbCount = s.dbCount := rfl
@[simp] theorem State.consumeWord_led (s : State) (w : Word) : (s.consumeWord w).led = s.led := rfl
@[simp] theorem State.consumeWord_ticksRemaining (s : State) (w : Word) : (s.consumeWord w).ticksRemaining = s.ticksRemaining := rfl
@[simp] theorem State.consumeWord_toneFreq (s : State) (w : Word) : (s.consumeWord w).toneFreq = s.toneFreq := rfl
@[simp] theorem State.consumeWord_toneSounding (s : State) (w : Word) : (s.consumeWord w).toneSounding = s.toneSounding := rfl
@[simp] theorem State.consumeWord_toneMuted (s : State) (w : Word) : (s.consumeWord w).toneMuted = s.toneMuted := rfl
@[simp] theorem State.consumeWord_tickPending (s : State) (w : Word) : (s.consumeWord w).tickPending = s.tickPending := rfl
@[simp] theorem State.consumeWord_ticksEnabled (s : State) (w : Word) : (s.consumeWord w).ticksEnabled = s.ticksEnabled := rfl
@[simp] theorem State.consumeWord_halted (s : State) (w : Word) : (s.consumeWord w).halted = s.halted := rfl
@[simp] theorem State.consumeWord_faultCode (s : State) (w : Word) : (s.consumeWord w).faultCode = s.faultCode := rfl
@[simp] theorem State.consumeWord_faultWord (s : State) (w : Word) : (s.consumeWord w).faultWord = s.faultWord := rfl
@[simp] theorem State.consumeWord_srcPos (s : State) (w : Word) : (s.consumeWord w).srcPos = (s.srcPos + 1) % s.cfg.song.length := rfl
@[simp] theorem State.consumeWord_trace (s : State) (w : Word) : (s.consumeWord w).trace = s.trace ++ [.pull w] := rfl
@[simp] theorem State.consumeWord_eventOut (s : State) (w : Word) : (s.consumeWord w).eventOut = s.eventOut := rfl
@[simp] theorem State.consumeWord_inbox (s : State) (w : Word) : (s.consumeWord w).inbox = s.inbox := rfl
@[simp] theorem State.consumeWord_freeIndex (s : State) (w : Word) : (s.consumeWord w).freeIndex = s.freeIndex := rfl

/-! ### restartSource -/

@[simp] theorem State.restartSource_cfg (s : State) : (s.restartSource).cfg = s.cfg := rfl
@[simp] theorem State.restartSource_dbState (s : State) : (s.restartSource).dbState = s.dbState := rfl
@[simp] theorem State.restartSource_dbCount (s : State) : (s.restartSource).dbCount = s.dbCount := rfl
@[simp] theorem State.restartSource_led (s : State) : (s.restartSource).led = s.led := rfl
@[simp] theorem State.restartSource_ticksRemaining (s : State) : (s.restartSource).ticksRemaining = s.ticksRemaining := rfl
@[simp] theorem State.restartSource_toneFreq (s : State) : (s.restartSource).toneFreq = s.toneFreq := rfl
@[simp] theorem State.restartSource_toneSounding (s : State) : (s.restartSource).toneSounding = s.toneSounding := rfl
@[simp] theorem State.restartSource_toneMuted (s : State) : (s.restartSource).toneMuted = s.toneMuted := rfl
@[simp] theorem State.restartSource_tickPending (s : State) : (s.restartSource).tickPending = s.tickPending := rfl
@[simp] theorem State.restartSource_ticksEnabled (s : State) : (s.restartSource).ticksEnabled = s.ticksEnabled := rfl
@[simp] theorem State.restartSource_halted (s : State) : (s.restartSource).halted = s.halted := rfl
@[simp] theorem State.restartSource_faultCode (s : State) : (s.restartSource).faultCode = s.faultCode := rfl
@[simp] theorem State.restartSource_faultWord (s : State) : (s.restartSource).faultWord = s.faultWord := rfl
@[simp] theorem State.restartSource_srcPos (s : State) : (s.restartSource).srcPos = 0 := rfl
@[simp] theorem State.restartSource_trace (s : State) : (s.restartSource).trace = s.trace ++ [.restart] := rfl
@[simp] theorem State.restartSource_eventOut (s : State) : (s.restartSource).eventOut = s.eventOut := rfl
@[simp] theorem State.restartSource_inbox (s : State) : (s.restartSource).inbox = s.inbox := rfl
@[simp] theorem State.restartSource_freeIndex (s : State) : (s.restartSource).freeIndex = s.freeIndex := rfl

/-! ### setDebounce -/

@[simp] theorem State.setDebounce_cfg (s : State) (d : DbState) (c : BitVec 8) (ev : ButtonEvent) : (s.setDebounce d c ev).cfg = s.cfg := rfl
@[simp] theorem State.setDebounce_dbState (s : State) (d : DbState) (c : BitVec 8) (ev : ButtonEvent) : (s.setDebounce d c ev).dbState = d := rfl
@[simp] theorem State.setDebounce_dbCount (s : State) (d : DbState) (c : BitVec 8) (ev : ButtonEvent) : (s.setDebounce d c ev).dbCount = c := rfl
@[simp] theorem State.setDebounce_led (s : State) (d : DbState) (c : BitVec 8) (ev : ButtonEvent) : (s.setDebounce d c ev).led = s.led := rfl
@[simp] theorem State.setDebounce_ticksRemaining (s : State) (d : DbState) (c : BitVec 8) (ev : ButtonEvent) : (s.setDebounce d c ev).ticksRemaining = s.ticksRemaining := rfl
@[simp] theorem State.setDebounce_toneFreq (s : State) (d : DbState) (c : BitVec 8) (ev : ButtonEvent) : (s.setDebounce d c ev).toneFreq = s.toneFreq := rfl
@[simp] theorem State.setDebounce_toneSounding (s : State) (d : DbState) (c : BitVec 8) (ev : ButtonEvent) : (s.setDebounce d c ev).toneSounding = s.toneSounding := rfl
@[simp] theorem State.setDebounce_toneMuted (s : State) (d : DbState) (c : BitVec 8) (ev : ButtonEvent) : (s.setDebounce d c ev).toneMuted = s.toneMuted := rfl
@[simp] theorem State.setDebounce_tickPending (s : State) (d : DbState) (c : BitVec 8) (ev : ButtonEvent) : (s.setDebounce d c ev).tickPending = s.tickPending := rfl
@[simp] theorem State.setDebounce_ticksEnabled (s : State) (d : DbState) (c : BitVec 8) (ev : ButtonEvent) : (s.setDebounce d c ev).ticksEnabled = s.ticksEnabled := rfl
@[simp] theorem State.setDebounce_halted (s : State) (d : DbState) (c : BitVec 8) (ev : ButtonEvent) : (s.setDebounce d c ev).halted = s.halted := rfl
@[simp] theorem State.setDebounce_faultCode (s : State) (d : DbState) (c : BitVec 8) (ev : ButtonEvent) : (s.setDebounce d c ev).faultCode = s.faultCode := rfl
@[simp] theorem State.setDebounce_faultWord (s : State) (d : DbState) (c : BitVec 8) (ev : ButtonEvent) : (s.setDebounce d c ev).faultWord = s.faultWord := rfl
@[simp] theorem State.setDebounce_srcPos (s : State) (d : DbState) (c : BitVec 8) (ev : ButtonEvent) : (s.setDebounce d c ev).srcPos = s.srcPos := rfl
@[simp] theorem State.setDebounce_trace (s : State) (d : DbState) (c : BitVec 8) (ev : ButtonEvent) : (s.setDebounce d c ev).trace = s.trace := rfl
@[simp] theorem State.setDebounce_eventOut (s : State) (d : DbState) (c : BitVec 8) (ev : ButtonEvent) : (s.setDebounce d c ev).eventOut = some ev := rfl
@[simp] theorem State.setDebounce_inbox (s : State) (d : DbState) (c : BitVec 8) (ev : ButtonEvent) : (s.setDebounce d c ev).inbox = s.inbox := rfl
@[simp] theorem State.setDebounce_freeIndex (s : State) (d : DbState) (c : BitVec 8) (ev : ButtonEvent) : (s.setDebounce d c ev).freeIndex = s.freeIndex := rfl

/-! ### setPending -/

@[simp] theorem State.setPending_cfg (s : State) : (s.setPending).cfg = s.cfg := rfl
@[simp] theorem State.setPending_dbState (s : State) : (s.setPending).dbState = s.dbState := rfl
@[simp] theorem State.setPending_dbCount (s : State) : (s.setPending).dbCount = s.dbCount := rfl
@[simp] theorem State.setPending_led (s : State) : (s.setPending).led = s.led := rfl
@[simp] theorem State.setPending_ticksRemaining (s : State) : (s.setPending).ticksRemaining = s.ticksRemaining := rfl
@[simp] theorem State.setPending_toneFreq (s : State) : (s.setPending).toneFreq = s.toneFreq := rfl
@[simp] theorem State.setPending_toneSounding (s : State) : (s.setPending).toneSounding = s.toneSounding := rfl
@[simp] theorem State.setPending_toneMuted (s : State) : (s.setPending).toneMuted = s.toneMuted := rfl
@[simp] theorem State.setPending_tickPending (s : State) : (s.setPending).tickPending = true := rfl
@[simp] theorem State.setPending_ticksEnabled (s : State) : (s.setPending).ticksEnabled = s.ticksEnabled := rfl
@[simp] theorem State.setPending_halted (s : State) : (s.setPending).halted = s.halted := rfl
@[simp] theorem State.setPending_faultCode (s : State) : (s.setPending).faultCode = s.faultCode := rfl
@[simp] theorem State.setPending_faultWord (s : State) : (s.setPending).faultWord = s.faultWord := rfl
@[simp] theorem State.setPending_srcPos (s : State) : (s.setPending).srcPos = s.srcPos := rfl
@[simp] theorem State.setPending_trace (s : State) : (s.setPending).trace = s.trace := rfl
@[simp] theorem State.setPending_eventOut (s : State) : (s.setPending).eventOut = s.eventOut := rfl
@[simp] theorem State.setPending_inbox (s : State) : (s.setPending).inbox = s.inbox := rfl
@[simp] theorem State.setPending_freeIndex (s : State) : (s.setPending).freeIndex = s.freeIndex := rfl

/-! ### setEnabled -/

@[simp] theorem State.setEnabled_cfg (s : State) : (s.setEnabled).cfg = s.cfg := rfl
@[simp] theorem State.setEnabled_dbState (s : State) : (s.setEnabled).dbState = s.dbState := rfl
@[simp] theorem State.setEnabled_dbCount (s : State) : (s.setEnabled).dbCount = s.dbCount := rfl
@[simp] theorem State.setEnabled_led (s : State) : (s.setEnabled).led = s.led := rfl
@[simp] theorem State.setEnabled_ticksRemaining (s : State) : (s.setEnabled).ticksRemaining = s.ticksRemaining := rfl
@[simp] theorem State.setEnabled_toneFreq (s : State) : (s.setEnabled).toneFreq = s.toneFreq := rfl
@[simp] theorem State.setEnabled_toneSounding (s : State) : (s.setEnabled).toneSounding = s.toneSounding := rfl
@[simp] theorem State.setEnabled_toneMuted (s : State) : (s.setEnabled).toneMuted = s.toneMuted := rfl
@[simp] theorem State.setEnabled_tickPending (s : State) : (s.setEnabled).tickPending = s.tickPending := rfl
@[simp] theorem State.setEnabled_ticksEnabled (s : State) : (s.setEnabled).ticksEnabled = true := rfl
@[simp] theorem State.setEnabled_halted (s : State) : (s.setEnabled).halted = s.halted := rfl
@[simp] theorem State.setEnabled_faultCode (s : State) : (s.setEnabled).faultCode = s.faultCode := rfl
@[simp] theorem State.setEnabled_faultWord (s : State) : (s.setEnabled).faultWord = s.faultWord := rfl
@[simp] theorem State.setEnabled_srcPos (s : State) : (s.setEnabled).srcPos = s.srcPos := rfl
@[simp] theorem State.setEnabled_trace (s : State) : (s.setEnabled).trace = s.trace := rfl
@[simp] theorem State.setEnabled_eventOut (s : State) : (s.setEnabled).eventOut = s.eventOut := rfl
@[simp] theorem State.setEnabled_inbox (s : State) : (s.setEnabled).inbox = s.inbox := rfl
@[simp] theorem State.setEnabled_freeIndex (s : State) : (s.setEnabled).freeIndex = s.freeIndex := rfl

/-! ### haltWith -/

@[simp] theorem State.haltWith_cfg (s : State) (k : FaultCode) (w : Word) : (s.haltWith k w).cfg = s.cfg := rfl
@[simp] theorem State.haltWith_dbState (s : State) (k : FaultCode) (w : Word) : (s.haltWith k w).dbState = s.dbState := rfl
@[simp] theorem State.haltWith_dbCount (s : State) (k : FaultCode) (w : Word) : (s.haltWith k w).dbCount = s.dbCount := rfl
@[simp] theorem State.haltWith_led (s : State) (k : FaultCode) (w : Word) : (s.haltWith k w).led = s.led := rfl
@[simp] theorem State.haltWith_ticksRemaining (s : State) (k : FaultCode) (w : Word) : (s.haltWith k w).ticksRemaining = s.ticksRemaining := rfl
@[simp] theorem State.haltWith_toneFreq (s : State) (k : FaultCode) (w : Word) : (s.haltWith k w).toneFreq = s.toneFreq := rfl
@[simp] theorem State.haltWith_toneSounding (s : State) (k : FaultCode) (w : Word) : (s.haltWith k w).toneSounding = s.toneSounding := rfl
@[simp] theorem State.haltWith_toneMuted (s : State) (k : FaultCode) (w : Word) : (s.haltWith k w).toneMuted = s.toneMuted := rfl
@[simp] theorem State.haltWith_tickPending (s : State) (k : FaultCode) (w : Word) : (s.haltWith k w).tickPending = s.tickPending := rfl
@[simp] theorem State.haltWith_ticksEnabled (s : State) (k : FaultCode) (w : Word) : (s.haltWith k w).ticksEnabled = s.ticksEnabled := rfl
@[simp] theorem State.haltWith_halted (s : State) (k : FaultCode) (w : Word) : (s.haltWith k w).halted = true := rfl
@[simp] theorem State.haltWith_faultCode (s : State) (k : FaultCode) (w : Word) : (s.haltWith k w).faultCode = k := rfl
@[simp] theorem State.haltWith_faultWord (s : State) (k : FaultCode) (w : Word) : (s.haltWith k w).faultWord = w := rfl
@[simp] theorem State.haltWith_srcPos (s : State) (k : FaultCode) (w : Word) : (s.haltWith k w).srcPos = s.srcPos := rfl
@[simp] theorem State.haltWith_trace (s : State) (k : FaultCode) (w : Word) : (s.haltWith k w).trace = s.trace := rfl
@[simp] theorem State.haltWith_eventOut (s : State) (k : FaultCode) (w : Word) : (s.haltWith k w).eventOut = s.eventOut := rfl
@[simp] theorem State.haltWith_inbox (s : State) (k : FaultCode) (w : Word) : (s.haltWith k w).inbox = s.inbox := rfl
@[simp] theorem State.haltWith_freeIndex (s : State) (k : FaultCode) (w : Word) : (s.haltWith k w).freeIndex = s.freeIndex := rfl

/-! ### installReset -/

@[simp] theorem State.installReset_cfg (s : State) : (s.installReset).cfg = s.cfg := rfl
@[simp] theorem State.installReset_dbState (s : State) : (s.installReset).dbState = s.cfg.initialState := rfl
@[simp] theorem State.installReset_dbCount (s : State) : (s.installReset).dbCount = 0 := rfl
@[simp] theorem State.installReset_led (s : State) : (s.installReset).led = false := rfl
@[simp] theorem State.installReset_ticksRemaining (s : State) : (s.installReset).ticksRemaining = 0 := rfl
@[simp] theorem State.installReset_toneFreq (s : State) : (s.installReset).toneFreq = 0 := rfl
@[simp] theorem State.installReset_toneSounding (s : State) : (s.installReset).toneSounding = false := rfl
@[simp] theorem State.installReset_toneMuted (s : State) : (s.installReset).toneMuted = true := rfl
@[simp] theorem State.installReset_tickPending (s : State) : (s.installReset).tickPending = false := rfl
@[simp] theorem State.installReset_ticksEnabled (s : State) : (s.installReset).ticksEnabled = false := rfl
@[simp] theorem State.installReset_halted (s : State) : (s.installReset).halted = false := rfl
@[simp] theorem State.installReset_faultCode (s : State) : (s.installReset).faultCode = .none := rfl
@[simp] theorem State.installReset_faultWord (s : State) : (s.installReset).faultWord = 0 := rfl
@[simp] theorem State.installReset_srcPos (s : State) : (s.installReset).srcPos = 0 := rfl
@[simp] theorem State.installReset_trace (s : State) : (s.installReset).trace = s.trace := rfl
@[simp] theorem State.installReset_eventOut (s : State) : (s.installReset).eventOut = s.eventOut := rfl
@[simp] theorem State.installReset_inbox (s : State) : (s.installReset).inbox = s.inbox := rfl
@[simp] theorem State.installReset_freeIndex (s : State) : (s.installReset).freeIndex = s.freeIndex := rfl

/-! ### beginStep -/

@[simp] theorem State.beginStep_cfg (s : State) : (s.beginStep).cfg = s.cfg := rfl
@[simp] theorem State.beginStep_dbState (s : State) : (s.beginStep).dbState = s.dbState := rfl
@[simp] theorem State.beginStep_dbCount (s : State) : (s.beginStep).dbCount = s.dbCount := rfl
@[simp] theorem State.beginStep_led (s : State) : (s.beginStep).led = s.led := rfl
@[simp] theorem State.beginStep_ticksRemaining (s : State) : (s.beginStep).ticksRemaining = s.ticksRemaining := rfl
@[simp] theorem State.beginStep_toneFreq (s : State) : (s.beginStep).toneFreq = s.toneFreq := rfl
@[simp] theorem State.beginStep_toneSounding (s : State) : (s.beginStep).toneSounding = s.toneSounding := rfl
@[simp] theorem State.beginStep_toneMuted (s : State) : (s.beginStep).toneMuted = s.toneMuted := rfl
@[simp] theorem State.beginStep_tickPending (s : State) : (s.beginStep).tickPending = s.tickPending := rfl
@[simp] theorem State.beginStep_ticksEnabled (s : State) : (s.beginStep).ticksEnabled = s.ticksEnabled := rfl
@[simp] theorem State.beginStep_halted (s : State) : (s.beginStep).halted = s.halted := rfl
@[simp] theorem State.beginStep_faultCode (s : State) : (s.beginStep).faultCode = s.faultCode := rfl
@[simp] theorem State.beginStep_faultWord (s : State) : (s.beginStep).faultWord = s.faultWord := rfl
@[simp] theorem State.beginStep_srcPos (s : State) : (s.beginStep).srcPos = s.srcPos := rfl
@[simp] theorem State.beginStep_trace (s : State) : (s.beginStep).trace = [] := rfl
@[simp] theorem State.beginStep_eventOut (s : State) : (s.beginStep).eventOut = none := rfl
@[simp] theorem State.beginStep_inbox (s : State) : (s.beginStep).inbox = s.inbox.tail := rfl
@[simp] theorem State.beginStep_freeIndex (s : State) : (s.beginStep).freeIndex = s.freeIndex + 1 := rfl

/-! ### arrive -/

@[simp] theorem State.arrive_cfg (s : State) (es : List Event) : (s.arrive es).cfg = s.cfg := rfl
@[simp] theorem State.arrive_dbState (s : State) (es : List Event) : (s.arrive es).dbState = s.dbState := rfl
@[simp] theorem State.arrive_dbCount (s : State) (es : List Event) : (s.arrive es).dbCount = s.dbCount := rfl
@[simp] theorem State.arrive_led (s : State) (es : List Event) : (s.arrive es).led = s.led := rfl
@[simp] theorem State.arrive_ticksRemaining (s : State) (es : List Event) : (s.arrive es).ticksRemaining = s.ticksRemaining := rfl
@[simp] theorem State.arrive_toneFreq (s : State) (es : List Event) : (s.arrive es).toneFreq = s.toneFreq := rfl
@[simp] theorem State.arrive_toneSounding (s : State) (es : List Event) : (s.arrive es).toneSounding = s.toneSounding := rfl
@[simp] theorem State.arrive_toneMuted (s : State) (es : List Event) : (s.arrive es).toneMuted = s.toneMuted := rfl
@[simp] theorem State.arrive_tickPending (s : State) (es : List Event) : (s.arrive es).tickPending = s.tickPending := rfl
@[simp] theorem State.arrive_ticksEnabled (s : State) (es : List Event) : (s.arrive es).ticksEnabled = s.ticksEnabled := rfl
@[simp] theorem State.arrive_halted (s : State) (es : List Event) : (s.arrive es).halted = s.halted := rfl
@[simp] theorem State.arrive_faultCode (s : State) (es : List Event) : (s.arrive es).faultCode = s.faultCode := rfl
@[simp] theorem State.arrive_faultWord (s : State) (es : List Event) : (s.arrive es).faultWord = s.faultWord := rfl
@[simp] theorem State.arrive_srcPos (s : State) (es : List Event) : (s.arrive es).srcPos = s.srcPos := rfl
@[simp] theorem State.arrive_trace (s : State) (es : List Event) : (s.arrive es).trace = s.trace := rfl
@[simp] theorem State.arrive_eventOut (s : State) (es : List Event) : (s.arrive es).eventOut = s.eventOut := rfl
@[simp] theorem State.arrive_inbox (s : State) (es : List Event) : (s.arrive es).inbox = s.inbox ++ byPriority es := rfl
@[simp] theorem State.arrive_freeIndex (s : State) (es : List Event) : (s.arrive es).freeIndex = s.freeIndex := rfl

/-! ### withInbox -/

@[simp] theorem State.withInbox_cfg (s : State) (turns : List Event) : (s.withInbox turns).cfg = s.cfg := rfl
@[simp] theorem State.withInbox_dbState (s : State) (turns : List Event) : (s.withInbox turns).dbState = s.dbState := rfl
@[simp] theorem State.withInbox_dbCount (s : State) (turns : List Event) : (s.withInbox turns).dbCount = s.dbCount := rfl
@[simp] theorem State.withInbox_led (s : State) (turns : List Event) : (s.withInbox turns).led = s.led := rfl
@[simp] theorem State.withInbox_ticksRemaining (s : State) (turns : List Event) : (s.withInbox turns).ticksRemaining = s.ticksRemaining := rfl
@[simp] theorem State.withInbox_toneFreq (s : State) (turns : List Event) : (s.withInbox turns).toneFreq = s.toneFreq := rfl
@[simp] theorem State.withInbox_toneSounding (s : State) (turns : List Event) : (s.withInbox turns).toneSounding = s.toneSounding := rfl
@[simp] theorem State.withInbox_toneMuted (s : State) (turns : List Event) : (s.withInbox turns).toneMuted = s.toneMuted := rfl
@[simp] theorem State.withInbox_tickPending (s : State) (turns : List Event) : (s.withInbox turns).tickPending = s.tickPending := rfl
@[simp] theorem State.withInbox_ticksEnabled (s : State) (turns : List Event) : (s.withInbox turns).ticksEnabled = s.ticksEnabled := rfl
@[simp] theorem State.withInbox_halted (s : State) (turns : List Event) : (s.withInbox turns).halted = s.halted := rfl
@[simp] theorem State.withInbox_faultCode (s : State) (turns : List Event) : (s.withInbox turns).faultCode = s.faultCode := rfl
@[simp] theorem State.withInbox_faultWord (s : State) (turns : List Event) : (s.withInbox turns).faultWord = s.faultWord := rfl
@[simp] theorem State.withInbox_srcPos (s : State) (turns : List Event) : (s.withInbox turns).srcPos = s.srcPos := rfl
@[simp] theorem State.withInbox_trace (s : State) (turns : List Event) : (s.withInbox turns).trace = s.trace := rfl
@[simp] theorem State.withInbox_eventOut (s : State) (turns : List Event) : (s.withInbox turns).eventOut = s.eventOut := rfl
@[simp] theorem State.withInbox_inbox (s : State) (turns : List Event) : (s.withInbox turns).inbox = turns := rfl
@[simp] theorem State.withInbox_freeIndex (s : State) (turns : List Event) : (s.withInbox turns).freeIndex = s.freeIndex := rfl

end Sys2Proof.Machine
end

