-- ==== Sys2Proof/Laws/Debounce.lean ====
section
/-! SUPPORT. What DEBOUNCE_STEP can do (R91, R94). -/

namespace Sys2Proof.Machine

/-- The three outcomes of a debounce step: a match, a flip, a count (R94). -/
theorem filterStep_cases (cfg : Config) (raw : Bool) (d : DbState) (c : BitVec 8) :
    (raw = confirmedLevel cfg d ∧ filterStep cfg raw d c = (d, 0, .nothing))
    ∨ (raw ≠ confirmedLevel cfg d ∧ c + 1 = cfg.threshold ∧ filterStep cfg raw d c = (flipped d, 0, leaveEvent d))
    ∨ (raw ≠ confirmedLevel cfg d ∧ c + 1 ≠ cfg.threshold ∧ filterStep cfg raw d c = (d, c + 1, .nothing)) := by
  by_cases h : raw = confirmedLevel cfg d
  · exact .inl ⟨h, by simp [filterStep, h]⟩
  · by_cases h2 : c + 1 = cfg.threshold
    · exact .inr (.inl ⟨h, h2, by simp only [filterStep, if_neg h, if_pos h2]⟩)
    · exact .inr (.inr ⟨h, h2, by simp only [filterStep, if_neg h, if_neg h2]⟩)

theorem filterStep_match {cfg : Config} {raw : Bool} {d : DbState} (h : raw = confirmedLevel cfg d) (c : BitVec 8) :
    filterStep cfg raw d c = (d, 0, .nothing) := by
  simp [filterStep, h]

/-- The increment cannot wrap below THRESHOLD (R91, R98). -/
theorem count_succ_toNat {c thr : BitVec 8} (h : c < thr) : (c + 1).toNat = c.toNat + 1 := by
  have h' : c.toNat < thr.toNat := h
  have := thr.isLt
  simp [BitVec.toNat_add]
  omega

/-- The stored counter stays below THRESHOLD (R94, R187). -/
theorem filterStep_count_lt {cfg : Config} {c : BitVec 8} (h : c < cfg.threshold) (raw : Bool) (d : DbState) :
    (filterStep cfg raw d c).2.1 < cfg.threshold := by
  have h' : c.toNat < cfg.threshold.toNat := h
  have hs := count_succ_toNat h
  rcases filterStep_cases cfg raw d c with ⟨-, e⟩ | ⟨-, -, e⟩ | ⟨-, hne, e⟩
  · rw [e, BitVec.lt_def]; simp; omega
  · rw [e, BitVec.lt_def]; simp; omega
  · rw [e, BitVec.lt_def]
    have : (c + 1).toNat ≠ cfg.threshold.toNat := fun h => hne (BitVec.eq_of_toNat_eq h)
    simp only
    omega

/-- The event says which way the confirmed state moved (R93). -/
theorem filterStep_event (cfg : Config) (raw : Bool) (d : DbState) (c : BitVec 8) :
    ((filterStep cfg raw d c).2.2 = .nothing ∧ (filterStep cfg raw d c).1 = d)
    ∨ ((filterStep cfg raw d c).2.2 = leaveEvent d ∧ (filterStep cfg raw d c).1 = flipped d) := by
  rcases filterStep_cases cfg raw d c with ⟨-, e⟩ | ⟨-, -, e⟩ | ⟨-, -, e⟩ <;> simp [e]

end Sys2Proof.Machine
end

