-- ==== Sys2Proof/Laws/Ops.lean ====
section
/-! SUPPORT. What the shared operations can do: fault entry, the pull, and the order of coincident events. -/

namespace Sys2Proof.Machine

theorem raiseFault_of_halted {s : State} (h : s.halted = true) (k : FaultCode) (w : Word) :
    raiseFault k w s = s := by
  simp [raiseFault, h]

theorem raiseFault_of_running {s : State} (h : s.halted = false) (k : FaultCode) (w : Word) :
    raiseFault k w s = s.haltWith k w := by
  simp [raiseFault, h]

/-- Fault entry writes the three fault fields or nothing (R164). -/
theorem raiseFault_cases (k : FaultCode) (w : Word) (s : State) :
    (s.halted = true ∧ raiseFault k w s = s) ∨ (s.halted = false ∧ raiseFault k w s = s.haltWith k w) := by
  cases h : s.halted
  · exact .inr ⟨rfl, raiseFault_of_running h k w⟩
  · exact .inl ⟨rfl, raiseFault_of_halted h k w⟩

theorem raiseFault_halted (k : FaultCode) (w : Word) (s : State) : (raiseFault k w s).halted = true := by
  rcases raiseFault_cases k w s with ⟨h, e⟩ | ⟨h, e⟩ <;> simp [e, h]

/-- A pull answers the word at `src_pos` and consumes it (R112). -/
theorem State.pull_eq_some {s t : State} {w : Word} :
    s.pull = some (w, t) ↔ s.cfg.song[s.srcPos]? = some w ∧ t = s.consumeWord w := by
  unfold State.pull
  cases h : s.cfg.song[s.srcPos]? with
  | none => simp
  | some v =>
    simp only [Option.some.injEq, Prod.mk.injEq]
    constructor
    · rintro ⟨rfl, rfl⟩
      exact ⟨rfl, rfl⟩
    · rintro ⟨rfl, rfl⟩
      exact ⟨rfl, rfl⟩

theorem State.pull_of_song {s : State} {w : Word} (h : s.cfg.song[s.srcPos]? = some w) :
    s.pull = some (w, s.consumeWord w) :=
  State.pull_eq_some.2 ⟨h, rfl⟩

/-- With `src_pos` in range there is always a word (R188). -/
theorem song_at {s : State} (h : s.srcPos < s.cfg.song.length) : ∃ w, s.cfg.song[s.srcPos]? = some w :=
  ⟨_, List.getElem?_eq_getElem h⟩

theorem mem_insertByPriority {e x : Event} {es : List Event} :
    x ∈ insertByPriority e es ↔ x = e ∨ x ∈ es := by
  induction es with
  | nil => simp [insertByPriority]
  | cons y ys ih =>
    unfold insertByPriority
    split
    · simp
    · simp only [List.mem_cons, ih]
      tauto

end Sys2Proof.Machine
end

