-- ==== Sys2Proof/Laws/Exec.lean ====
section
/-! SUPPORT. What running a command can do: one inversion lemma for EXECUTE, and for a pulled word (R111, R118). -/

namespace Sys2Proof.Machine

/-- Everything running an instruction may make of a state: nothing, a tone action, a tone action with a duration, or
fault entry with ILLEGAL_COMMAND. -/
inductive ExecResult (s : State) : State → Prop where
  | same : ExecResult s s
  | play (p : Pitch) : ExecResult s (s.play p)
  | silence : ExecResult s s.silence
  | playFor (p : Pitch) (d : Dur) : ExecResult s ((s.play p).setTicksRemaining d)
  | silenceFor (d : Dur) : ExecResult s (s.silence.setTicksRemaining d)
  | illegal (w : Word) : ExecResult s (raiseFault .illegalCommand w s)

/-- EXECUTE always answers a next state, one of those of `ExecResult`. -/
theorem exec_result (i : Instr) (s : State) : ∃ t, exec i s = .next t ∧ ExecResult s t := by
  cases i with
  | wait => exact ⟨_, rfl, .same⟩
  | beginNote p =>
    by_cases h : pitchOk p = true
    · exact ⟨_, by simp only [exec, execBeginNote, h, if_true], .play p⟩
    · exact ⟨_, by simp only [exec, execBeginNote, h]; rfl, .illegal _⟩
  | endNote => exact ⟨_, rfl, .silence⟩
  | note p d =>
    by_cases h : (pitchOk p && durOk d) = true
    · exact ⟨_, by simp only [exec, execNote, h, if_true], .playFor p d⟩
    · exact ⟨_, by simp only [exec, execNote, h]; rfl, .illegal _⟩
  | rest d =>
    by_cases h : durOk d = true
    · exact ⟨_, by simp only [exec, execRest, h, if_true], .silenceFor d⟩
    · exact ⟨_, by simp only [exec, execRest, h]; rfl, .illegal _⟩
  | reserved101 x => exact ⟨_, rfl, .illegal _⟩
  | reserved110 x => exact ⟨_, rfl, .illegal _⟩
  | reserved111 x => exact ⟨_, rfl, .illegal _⟩

theorem exec_inv {i : Instr} {s t : State} (h : exec i s = .next t) : ExecResult s t := by
  obtain ⟨t', e, r⟩ := exec_result i s
  rw [e] at h
  cases h
  exact r

/-- Running a pulled word always answers a next state. -/
theorem runWord_result (w : Word) (s : State) : ∃ t, runWord w s = .next t ∧ ExecResult s t := by
  unfold runWord
  cases decode w with
  | ok i => exact exec_result i s
  | error e => exact ⟨_, rfl, .illegal w⟩

theorem runWord_inv {w : Word} {s t : State} (h : runWord w s = .next t) : ExecResult s t := by
  obtain ⟨t', e, r⟩ := runWord_result w s
  rw [e] at h
  cases h
  exact r

/-- Running a command leaves the filter, the configuration, `led`, the mute override, the tick flags, `src_pos`, the
input side and `event_out` alone. -/
theorem ExecResult.frame {s t : State} (h : ExecResult s t) :
    t.cfg = s.cfg ∧ t.dbState = s.dbState ∧ t.dbCount = s.dbCount ∧ t.led = s.led ∧ t.toneMuted = s.toneMuted
    ∧ t.tickPending = s.tickPending ∧ t.ticksEnabled = s.ticksEnabled ∧ t.srcPos = s.srcPos
    ∧ t.eventOut = s.eventOut ∧ t.inbox = s.inbox ∧ t.freeIndex = s.freeIndex := by
  cases h with
  | illegal w => rcases raiseFault_cases .illegalCommand w s with ⟨_, e⟩ | ⟨_, e⟩ <;> simp [e]
  | _ => simp

/-- Running a command only adds to the trace (R15). -/
theorem ExecResult.trace {s t : State} (h : ExecResult s t) : ∃ later, t.trace = s.trace ++ later := by
  cases h with
  | same => exact ⟨[], by simp⟩
  | play p => exact ⟨_, rfl⟩
  | silence => exact ⟨_, rfl⟩
  | playFor => exact ⟨_, rfl⟩
  | silenceFor => exact ⟨_, rfl⟩
  | illegal w => rcases raiseFault_cases .illegalCommand w s with ⟨-, e⟩ | ⟨-, e⟩ <;> exact ⟨[], by simp [e]⟩

end Sys2Proof.Machine
end

