-- ==== Sys2Proof/Laws/Operands.lean ====
section
/-! SUPPORT. Each field of each placed operand, so that the fields of an encoded word are read off by simp (R70, R71). -/

namespace Sys2Proof

@[simp] theorem opField_or (a b : Word) : opField (a ||| b) = opField a ||| opField b := by
  simp [opField, BitVec.extractLsb'_or]

@[simp] theorem durField_or (a b : Word) : durField (a ||| b) = durField a ||| durField b := by
  simp [durField, BitVec.extractLsb'_or]

@[simp] theorem pitchField_or (a b : Word) : pitchField (a ||| b) = pitchField a ||| pitchField b := by
  simp [pitchField, BitVec.extractLsb'_or]

@[simp] theorem payloadField_or (a b : Word) : payloadField (a ||| b) = payloadField a ||| payloadField b := by
  simp [payloadField, BitVec.extractLsb'_or]

@[simp] theorem opField_placePitch (p : Pitch) : opField (placePitch p) = 0 := by
  apply BitVec.eq_of_getLsbD_eq
  intro k hk
  simp [opField, placePitch, BitVec.getLsbD_of_ge p (29 + k) (by omega)]

@[simp] theorem opField_placeDur (d : Dur) : opField (placeDur d) = 0 := by
  apply BitVec.eq_of_getLsbD_eq
  intro k hk
  simp [opField, placeDur, BitVec.getLsbD_of_ge d (29 + k - 16) (by omega)]

@[simp] theorem opField_placePayload (x : Payload) : opField (placePayload x) = 0 := by
  apply BitVec.eq_of_getLsbD_eq
  intro k hk
  simp [opField, placePayload]

@[simp] theorem durField_placePitch (p : Pitch) : durField (placePitch p) = 0 := by
  apply BitVec.eq_of_getLsbD_eq
  intro k hk
  simp [durField, placePitch]

@[simp] theorem durField_placeDur (d : Dur) : durField (placeDur d) = d := by
  apply BitVec.eq_of_getLsbD_eq
  intro k hk
  simp [durField, placeDur, hk, show 16 + k < 32 by omega]

@[simp] theorem pitchField_placePitch (p : Pitch) : pitchField (placePitch p) = p := by
  apply BitVec.eq_of_getLsbD_eq
  intro k hk
  simp [pitchField, placePitch, hk, show k < 32 by omega]

@[simp] theorem pitchField_placeDur (d : Dur) : pitchField (placeDur d) = 0 := by
  apply BitVec.eq_of_getLsbD_eq
  intro k hk
  simp [pitchField, placeDur, hk]

@[simp] theorem payloadField_placePayload (x : Payload) : payloadField (placePayload x) = x := by
  apply BitVec.eq_of_getLsbD_eq
  intro k hk
  simp [payloadField, placePayload, hk, show k < 32 by omega]

/-- Two words with the same three fields are the same word (R70: the fields fill the word). -/
theorem word_ext_fields {a b : Word} (ho : opField a = opField b) (hd : durField a = durField b)
    (hp : pitchField a = pitchField b) : a = b := by
  apply BitVec.eq_of_getLsbD_eq
  intro k hk
  by_cases h1 : k < 16
  · simpa [pitchField, h1] using congrArg (fun x => x.getLsbD k) hp
  · by_cases h2 : k < 29
    · have h := congrArg (fun x => x.getLsbD (k - 16)) hd
      simpa [durField, show k - 16 < 13 by omega, show 16 + (k - 16) = k by omega] using h
    · have h := congrArg (fun x => x.getLsbD (k - 29)) ho
      simpa [opField, show k - 29 < 3 by omega, show 29 + (k - 29) = k by omega] using h

/-- Two words with the same opcode and the same 29 bits below it are the same word. -/
theorem word_ext_payload {a b : Word} (ho : opField a = opField b) (hx : payloadField a = payloadField b) :
    a = b := by
  apply BitVec.eq_of_getLsbD_eq
  intro k hk
  by_cases h2 : k < 29
  · simpa [payloadField, h2] using congrArg (fun x => x.getLsbD k) hx
  · have h := congrArg (fun x => x.getLsbD (k - 29)) ho
    simpa [opField, show k - 29 < 3 by omega, show 29 + (k - 29) = k by omega] using h

/-- The 29 bits below the opcode are zero exactly when the duration and pitch fields are. -/
theorem payloadField_eq_zero_iff (w : Word) : payloadField w = 0 ↔ durField w = 0 ∧ pitchField w = 0 := by
  constructor
  · intro h
    constructor
    · ext k hk
      have h := congrArg (fun x => x.getLsbD (16 + k)) h
      simpa [payloadField, durField, show 16 + k < 29 by omega] using h
    · ext k hk
      have h := congrArg (fun x => x.getLsbD k) h
      simpa [payloadField, pitchField, show k < 29 by omega] using h
  · rintro ⟨hd, hp⟩
    apply BitVec.eq_of_getLsbD_eq
    intro k hk
    by_cases h1 : k < 16
    · have h := congrArg (fun x => x.getLsbD k) hp
      simpa [payloadField, pitchField, h1, hk] using h
    · have h := congrArg (fun x => x.getLsbD (k - 16)) hd
      simpa [payloadField, durField, show k - 16 < 13 by omega, show 16 + (k - 16) = k by omega, hk] using h

/-- The mask of R73's table has exactly the opcode's bits. -/
theorem mask_bit (k : Nat) (hk : k < 32) : (0xE0000000#32).getLsbD k = decide (29 ≤ k) := by
  interval_cases k <;> decide

/-- The opcode test of R73's table, `w & 0xE0000000`, is a test of the opcode field. -/
theorem mask_eq_iff (w : Word) (o : BitVec 3) : w &&& 0xE0000000#32 = o.setWidth 32 <<< 29 ↔ opField w = o := by
  constructor
  · intro h
    apply BitVec.eq_of_getLsbD_eq
    intro k hk
    have h' : (w &&& 0xE0000000#32).getLsbD (29 + k) = _ := congrArg (fun x => x.getLsbD (29 + k)) h
    rw [BitVec.getLsbD_and, mask_bit (29 + k) (by omega)] at h'
    simpa [opField, hk, show 29 + k < 32 by omega, show k < 32 by omega] using h'
  · intro h
    apply BitVec.eq_of_getLsbD_eq
    intro k hk
    rw [BitVec.getLsbD_and, mask_bit k hk, ← h]
    by_cases h2 : k < 29
    · simp [h2]
    · simp [h2, opField, hk, show k - 29 < 3 by omega, show 29 + (k - 29) = k by omega, show 29 ≤ k by omega]

end Sys2Proof
end

