-- ==== Sys2Proof/Laws/PerInstr.lean ====
section
/-! SUPPORT. Facts about every instruction as syntax, one lemma per constructor: the opcode field of an encoded
instruction is its row's (R72), and its word is legal by R73's table exactly when it is a command with its operands in
range. -/

namespace Sys2Proof

/-- The opcode field of an instruction's word is its opcode (R72). -/
def Laws.OpcodeField.Statement (i : Instr) : Prop := opField (encode i) = i.opcode

theorem Laws.OpcodeField.wait : Laws.OpcodeField.Statement .wait := by
  unfold Laws.OpcodeField.Statement; decide

theorem Laws.OpcodeField.beginNote (p : Pitch) : Laws.OpcodeField.Statement (.beginNote p) := by
  simp [Laws.OpcodeField.Statement, encode, Instr.opcode]; decide

theorem Laws.OpcodeField.endNote : Laws.OpcodeField.Statement .endNote := by
  unfold Laws.OpcodeField.Statement; decide

theorem Laws.OpcodeField.note (p : Pitch) (d : Dur) : Laws.OpcodeField.Statement (.note p d) := by
  simp [Laws.OpcodeField.Statement, encode, Instr.opcode]; decide

theorem Laws.OpcodeField.rest (d : Dur) : Laws.OpcodeField.Statement (.rest d) := by
  simp [Laws.OpcodeField.Statement, encode, Instr.opcode]; decide

theorem Laws.OpcodeField.reserved101 (x : Payload) : Laws.OpcodeField.Statement (.reserved101 x) := by
  simp [Laws.OpcodeField.Statement, encode, Instr.opcode]; decide

theorem Laws.OpcodeField.reserved110 (x : Payload) : Laws.OpcodeField.Statement (.reserved110 x) := by
  simp [Laws.OpcodeField.Statement, encode, Instr.opcode]; decide

theorem Laws.OpcodeField.reserved111 (x : Payload) : Laws.OpcodeField.Statement (.reserved111 x) := by
  simp [Laws.OpcodeField.Statement, encode, Instr.opcode]; decide

/-- R73's table in terms of the opcode field. -/
theorem legalWord_eq (w : Word) : legalWord w =
    ((opField w == 0b000#3 && payloadField w == 0)
    || (opField w == 0b001#3 && durField w == 0 && pitchField w != 0)
    || (opField w == 0b010#3 && payloadField w == 0)
    || (opField w == 0b011#3 && durField w != 0 && pitchField w != 0)
    || (opField w == 0b100#3 && durField w != 0 && pitchField w == 0)) := by
  have key : ∀ o : BitVec 3, (w &&& 0xE0000000#32 == o.setWidth 32 <<< 29) = (opField w == o) := by
    intro o
    rw [Bool.eq_iff_iff, beq_iff_eq, beq_iff_eq]
    exact mask_eq_iff w o
  have h0 := key 0b000#3
  have h1 := key 0b001#3
  have h2 := key 0b010#3
  have h3 := key 0b011#3
  have h4 := key 0b100#3
  rw [← h0, ← h1, ← h2, ← h3, ← h4]
  rfl

/-- An instruction's word is legal by R73's table exactly when the instruction is a command with its operands in
range. -/
def Laws.LegalWord.Statement (i : Instr) : Prop := legalWord (encode i) = i.legal

theorem Laws.LegalWord.wait : Laws.LegalWord.Statement .wait := by
  unfold Laws.LegalWord.Statement; decide

theorem Laws.LegalWord.beginNote (p : Pitch) : Laws.LegalWord.Statement (.beginNote p) := by
  have h : opField 0x20000000#32 = 1#3 ∧ durField 0x20000000#32 = 0 ∧ pitchField 0x20000000#32 = 0 := by decide
  simp [Laws.LegalWord.Statement, legalWord_eq, encode, h, Instr.legal, Instr.isCommand, Instr.wellFormed, pitchOk]

theorem Laws.LegalWord.endNote : Laws.LegalWord.Statement .endNote := by
  unfold Laws.LegalWord.Statement; decide

theorem Laws.LegalWord.note (p : Pitch) (d : Dur) : Laws.LegalWord.Statement (.note p d) := by
  have h : opField 0x60000000#32 = 3#3 ∧ durField 0x60000000#32 = 0 ∧ pitchField 0x60000000#32 = 0 := by decide
  simp [Laws.LegalWord.Statement, legalWord_eq, encode, h, Instr.legal, Instr.isCommand, Instr.wellFormed, pitchOk,
    durOk, Bool.and_comm]

theorem Laws.LegalWord.rest (d : Dur) : Laws.LegalWord.Statement (.rest d) := by
  have h : opField 0x80000000#32 = 4#3 ∧ durField 0x80000000#32 = 0 ∧ pitchField 0x80000000#32 = 0 := by decide
  simp [Laws.LegalWord.Statement, legalWord_eq, encode, h, Instr.legal, Instr.isCommand, Instr.wellFormed, durOk]

theorem Laws.LegalWord.reserved101 (x : Payload) : Laws.LegalWord.Statement (.reserved101 x) := by
  have h : opField 0xA0000000#32 = 5#3 := by decide
  simp [Laws.LegalWord.Statement, legalWord_eq, encode, h, Instr.legal, Instr.isCommand]

theorem Laws.LegalWord.reserved110 (x : Payload) : Laws.LegalWord.Statement (.reserved110 x) := by
  have h : opField 0xC0000000#32 = 6#3 := by decide
  simp [Laws.LegalWord.Statement, legalWord_eq, encode, h, Instr.legal, Instr.isCommand]

theorem Laws.LegalWord.reserved111 (x : Payload) : Laws.LegalWord.Statement (.reserved111 x) := by
  have h : opField 0xE0000000#32 = 7#3 := by decide
  simp [Laws.LegalWord.Statement, legalWord_eq, encode, h, Instr.legal, Instr.isCommand]

end Sys2Proof
end

