-- ==== Sys2Proof/Laws/Sequencer.lean ====
section
/-! SUPPORT. What ADVANCE, ARM and DISARM can do (R111, R120, R121). -/

namespace Sys2Proof.Machine

@[simp] theorem State.setTicksRemaining_self (s : State) : s.setTicksRemaining s.ticksRemaining = s := rfl

/-- With more than one tick left, ADVANCE counts down and does nothing else (R111). -/
theorem advance_of_counting {s : State} (h : 1 < s.ticksRemaining.toNat) :
    advance s = .next (s.setTicksRemaining (s.ticksRemaining - 1)) := by
  have hpos : 0 < s.ticksRemaining := by rw [BitVec.lt_def]; simp; omega
  have hne : s.ticksRemaining - 1 ≠ 0 := by
    intro e
    have hn := congrArg BitVec.toNat e
    have hl := s.ticksRemaining.isLt
    simp [BitVec.toNat_sub] at hn
    omega
  have hc : countDown s = s.setTicksRemaining (s.ticksRemaining - 1) := if_pos hpos
  simp only [advance, hc, State.setTicksRemaining_ticksRemaining, if_neg hne]

/-- With at most one tick left, ADVANCE pulls (R111). -/
theorem advance_of_due {s : State} (h : s.ticksRemaining.toNat ≤ 1) :
    advance s = pullAndRun (s.setTicksRemaining 0) := by
  rcases Nat.le_one_iff_eq_zero_or_eq_one.1 h with h0 | h1
  · have e : s.ticksRemaining = 0 := BitVec.eq_of_toNat_eq h0
    have : s.setTicksRemaining 0 = s := by rw [← e]; rfl
    rw [this]
    simp [advance, countDown, e]
  · have e : s.ticksRemaining = 1 := BitVec.eq_of_toNat_eq h1
    simp [advance, countDown, e]

/-- The pull of a due ADVANCE runs the word at `src_pos` on the state in which that word is consumed (R111, R112). -/
theorem advance_of_word {s : State} {w : Word} (h : s.ticksRemaining.toNat ≤ 1)
    (hw : s.cfg.song[s.srcPos]? = some w) :
    advance s = runWord w ((s.setTicksRemaining 0).consumeWord w) := by
  rw [advance_of_due h, pullAndRun, State.pull_of_song (s := s.setTicksRemaining 0) hw]

/-- Everything ADVANCE can answer. -/
theorem advance_cases {s t : State} (h : advance s = .next t) :
    (1 < s.ticksRemaining.toNat ∧ t = s.setTicksRemaining (s.ticksRemaining - 1))
    ∨ (s.ticksRemaining.toNat ≤ 1 ∧ ∃ w, s.cfg.song[s.srcPos]? = some w
        ∧ runWord w ((s.setTicksRemaining 0).consumeWord w) = .next t) := by
  by_cases h1 : 1 < s.ticksRemaining.toNat
  · rw [advance_of_counting h1] at h
    cases h
    exact .inl ⟨h1, rfl⟩
  · have h1 : s.ticksRemaining.toNat ≤ 1 := by omega
    refine .inr ⟨h1, ?_⟩
    rw [advance_of_due h1, pullAndRun] at h
    cases hw : s.cfg.song[s.srcPos]? with
    | none => simp [State.pull, hw] at h
    | some w =>
      rw [State.pull_of_song (s := s.setTicksRemaining 0) hw] at h
      exact ⟨w, rfl, h⟩

/-- With `src_pos` in range ADVANCE answers a next state: the command source never blocks (R112, R188). -/
theorem advance_next {s : State} (h : s.srcPos < s.cfg.song.length) : ∃ t, advance s = .next t := by
  by_cases h1 : 1 < s.ticksRemaining.toNat
  · exact ⟨_, advance_of_counting h1⟩
  · obtain ⟨w, hw⟩ := song_at h
    obtain ⟨t, e, -⟩ := runWord_result w ((s.setTicksRemaining 0).consumeWord w)
    exact ⟨t, by rw [advance_of_word (by omega) hw, e]⟩

/-- What ADVANCE leaves alone. -/
theorem advance_frame {s t : State} (h : advance s = .next t) :
    t.cfg = s.cfg ∧ t.dbState = s.dbState ∧ t.dbCount = s.dbCount ∧ t.led = s.led ∧ t.toneMuted = s.toneMuted
    ∧ t.tickPending = s.tickPending ∧ t.ticksEnabled = s.ticksEnabled
    ∧ t.eventOut = s.eventOut ∧ t.inbox = s.inbox ∧ t.freeIndex = s.freeIndex := by
  rcases advance_cases h with ⟨-, rfl⟩ | ⟨-, w, -, hr⟩
  · simp
  · have f := (runWord_inv hr).frame
    simp only [State.consumeWord_cfg, State.consumeWord_dbState, State.consumeWord_dbCount, State.consumeWord_led,
      State.consumeWord_toneMuted, State.consumeWord_tickPending, State.consumeWord_ticksEnabled,
      State.consumeWord_eventOut, State.consumeWord_inbox, State.consumeWord_freeIndex,
      State.setTicksRemaining_cfg, State.setTicksRemaining_dbState, State.setTicksRemaining_dbCount,
      State.setTicksRemaining_led, State.setTicksRemaining_toneMuted, State.setTicksRemaining_tickPending,
      State.setTicksRemaining_ticksEnabled, State.setTicksRemaining_eventOut, State.setTicksRemaining_inbox,
      State.setTicksRemaining_freeIndex] at f
    tauto

/-- DISARM under each policy (R121). -/
theorem disarm_cases (s : State) :
    (s.cfg.rearmPolicy = .resume ∧ disarm s = s.silence)
    ∨ (s.cfg.rearmPolicy = .restart ∧ disarm s = (s.silence.setTicksRemaining 0).restartSource) := by
  cases h : s.cfg.rearmPolicy
  · exact .inl ⟨rfl, by simp [disarm, h]⟩
  · exact .inr ⟨rfl, by simp [disarm, h]⟩

/-- ADVANCE only adds to the trace (R15). -/
theorem advance_trace {s t : State} (h : advance s = .next t) : ∃ later, t.trace = s.trace ++ later := by
  obtain ⟨-, rfl⟩ | ⟨-, w, -, hr⟩ := advance_cases h
  · exact ⟨[], by simp⟩
  · obtain ⟨l, hl⟩ := (runWord_inv hr).trace
    exact ⟨.pull w :: l, by simp [hl]⟩

end Sys2Proof.Machine
end

