-- ==== Sys2Proof/Laws/Tick.lean ====
section
/-! SUPPORT. What steps 1 to 3 of a TICK and the whole TICK can do (R140 to R144). -/

namespace Sys2Proof.Machine

/-- The state after step 2: acknowledged, sampled and filtered. -/
def sampled (raw : Bool) (s : State) : State := debounceStep raw s.ackTick

@[simp] theorem debounceEvent_ackTick (raw : Bool) (s : State) :
    debounceEvent raw s.ackTick = debounceEvent raw s := rfl

theorem sampled_eq (raw : Bool) (s : State) :
    sampled raw s = s.ackTick.setDebounce (filterStep s.cfg raw s.dbState s.dbCount).1
      (filterStep s.cfg raw s.dbState s.dbCount).2.1 (debounceEvent raw s) := rfl

/-- Steps 1 to 3: with no press the toggle does nothing; a press turns the indicator on with `unmute`, or off with
DISARM and `mute` (R142, R143). -/
theorem tickFront_cases (raw : Bool) (s : State) :
    (debounceEvent raw s ≠ .pressed ∧ tickFront raw s = sampled raw s)
    ∨ (debounceEvent raw s = .pressed ∧ s.led = false ∧ tickFront raw s = ((sampled raw s).setLed true).unmute)
    ∨ (debounceEvent raw s = .pressed ∧ s.led = true
        ∧ tickFront raw s = (disarm ((sampled raw s).setLed false)).mute) := by
  cases h : debounceEvent raw s with
  | nothing => exact .inl ⟨by simp, by simp [tickFront, toggle, h, sampled]⟩
  | released => exact .inl ⟨by simp, by simp [tickFront, toggle, h, sampled]⟩
  | pressed =>
    have hl : (debounceStep raw s.ackTick).led = s.led := rfl
    cases hled : s.led
    · exact .inr (.inl ⟨rfl, rfl, by simp [tickFront, toggle, h, sampled, hl, hled, arm]⟩)
    · exact .inr (.inr ⟨rfl, rfl, by simp [tickFront, toggle, h, sampled, hl, hled]⟩)

/-- What steps 1 to 3 leave alone, and what they make of the filter and the tick flags. -/
theorem tickFront_frame (raw : Bool) (s : State) :
    let r := filterStep s.cfg raw s.dbState s.dbCount
    let t := tickFront raw s
    t.cfg = s.cfg ∧ t.dbState = r.1 ∧ t.dbCount = r.2.1 ∧ t.eventOut = some r.2.2 ∧ t.toneFreq = s.toneFreq
    ∧ t.tickPending = false ∧ t.ticksEnabled = s.ticksEnabled ∧ t.halted = s.halted ∧ t.faultCode = s.faultCode
    ∧ t.faultWord = s.faultWord ∧ t.inbox = s.inbox ∧ t.freeIndex = s.freeIndex := by
  rcases tickFront_cases raw s with ⟨-, e⟩ | ⟨-, -, e⟩ | ⟨-, -, e⟩
  · simp [e, sampled_eq, debounceEvent]
  · simp [e, sampled_eq, debounceEvent]
  · rcases disarm_cases ((sampled raw s).setLed false) with ⟨-, ed⟩ | ⟨-, ed⟩ <;>
      (rw [ed] at e; simp [e, sampled_eq, debounceEvent])

/-- Where the toggle leaves `led` (R143). -/
theorem tickFront_led (raw : Bool) (s : State) :
    (tickFront raw s).led = (if debounceEvent raw s = .pressed then !s.led else s.led) := by
  rcases tickFront_cases raw s with ⟨h, e⟩ | ⟨h, hl, e⟩ | ⟨h, hl, e⟩
  · simp [e, h, sampled_eq]
  · simp [e, h, hl]
  · rcases disarm_cases ((sampled raw s).setLed false) with ⟨-, ed⟩ | ⟨-, ed⟩ <;>
      (rw [ed] at e; simp [e, h, hl])

theorem tick_of_off {raw : Bool} {s : State} (h : (tickFront raw s).led = false) :
    tick raw s = .next (tickFront raw s) := by
  simp [tick, h]

theorem tick_of_on {raw : Bool} {s : State} (h : (tickFront raw s).led = true) :
    tick raw s = advance (tickFront raw s) := by
  simp [tick, h]

/-- A TICK ends after step 4 with the indicator off, or with an ADVANCE. -/
theorem tick_cases {raw : Bool} {s t : State} (h : tick raw s = .next t) :
    ((tickFront raw s).led = false ∧ t = tickFront raw s)
    ∨ ((tickFront raw s).led = true ∧ advance (tickFront raw s) = .next t) := by
  cases hl : (tickFront raw s).led
  · rw [tick_of_off hl] at h
    cases h
    exact .inl ⟨rfl, rfl⟩
  · rw [tick_of_on hl] at h
    exact .inr ⟨rfl, h⟩

/-- Steps 1 to 3 emit `ack` first (R140). -/
theorem tickFront_trace (raw : Bool) (s : State) :
    ∃ later, (tickFront raw s).trace = s.trace ++ .ack :: later := by
  rcases tickFront_cases raw s with ⟨-, e⟩ | ⟨-, -, e⟩ | ⟨-, -, e⟩
  · exact ⟨[], by simp [e, sampled_eq]⟩
  · exact ⟨[.setLed true, .unmute], by simp [e, sampled_eq]⟩
  · rcases disarm_cases ((sampled raw s).setLed false) with ⟨-, ed⟩ | ⟨-, ed⟩ <;> rw [ed] at e
    · exact ⟨[.setLed false, .silence, .mute], by simp [e, sampled_eq]⟩
    · exact ⟨[.setLed false, .silence, .restart, .mute], by simp [e, sampled_eq]⟩

/-- What a whole TICK leaves alone, and its outputs: the filter's event, and a trace that begins with `ack`. -/
theorem tick_frame {raw : Bool} {s t : State} (h : tick raw s = .next t) :
    t.cfg = s.cfg ∧ t.eventOut = some (debounceEvent raw s) ∧ t.tickPending = false
    ∧ t.ticksEnabled = s.ticksEnabled ∧ t.inbox = s.inbox ∧ t.freeIndex = s.freeIndex
    ∧ ∃ later, t.trace = s.trace ++ .ack :: later := by
  obtain ⟨hc, -, -, he, -, hp, hn, -, -, -, hi, hf⟩ := tickFront_frame raw s
  obtain ⟨l, hl⟩ := tickFront_trace raw s
  obtain ⟨-, rfl⟩ | ⟨-, ha⟩ := tick_cases h
  · exact ⟨hc, he, hp, hn, hi, hf, l, hl⟩
  · obtain ⟨ac, -, -, -, -, ap, an, ae, ai, af⟩ := advance_frame ha
    obtain ⟨m, hm⟩ := advance_trace ha
    exact ⟨ac.trans hc, ae.trans he, ap.trans hp, an.trans hn, ai.trans hi, af.trans hf, l ++ m, by simp [hm, hl]⟩

end Sys2Proof.Machine
end

