-- ==== Sys2Proof/Laws/Step.lean ====
section
/-! SUPPORT. What one step can do, said once (R17). -/

namespace Sys2Proof.Machine

theorem nextEvent_of_inbox {s : State} {e : Event} {rest : List Event} (h : s.inbox = e :: rest) :
    nextEvent s = some e := by
  simp [nextEvent, h]

theorem typed_iff {s : State} :
    s.typed = true ↔ configLegal s.cfg = true ∧ s.dbCountInRange = true := by
  simp [State.typed]

theorem step_of_typed {s : State} (h : s.typed = true) : step s = takeTurn s := by
  obtain ⟨h1, h2⟩ := typed_iff.1 h
  simp [step, h1, h2]

/-- A typed state with a turn waiting takes that turn. -/
theorem step_of_turn {s : State} {e : Event} {rest : List Event} (h : s.typed = true) (hi : s.inbox = e :: rest) :
    step s = takeEvent e s.beginStep := by
  rw [step_of_typed h, takeTurn, nextEvent_of_inbox hi]

/-- Everything a step that answers a next state did: it was idle, or it took the event that was due. -/
theorem step_cases {s t : State} (h : step s = .next t) :
    s.typed = true
    ∧ ((nextEvent s = none ∧ s.halted = false ∧ t = s.beginStep)
      ∨ ∃ e, nextEvent s = some e ∧ takeEvent e s.beginStep = .next t) := by
  unfold step at h
  split at h
  · cases h
  · rename_i h1
    split at h
    · cases h
    · rename_i h2
      refine ⟨typed_iff.2 ⟨by simpa using h1, by simpa using h2⟩, ?_⟩
      unfold takeTurn at h
      split at h
      · rename_i e he
        exact .inr ⟨e, he, h⟩
      · rename_i he
        unfold idle at h
        split at h
        · cases h
        · rename_i hh
          cases h
          exact .inl ⟨he, by simpa using hh, rfl⟩

/-- The five events, each with all it can answer. -/
theorem takeEvent_cases {e : Event} {s t : State} (h : takeEvent e s = .next t) :
    (e = .reset ∧ t = s.installReset)
    ∨ (e = .enableTicks ∧ t = enableTicks s)
    ∨ (e = .tickFire ∧ t = s.setPending)
    ∨ (∃ k, e = .fatal k ∧ t = fatal k s)
    ∨ (∃ raw, e = .tick raw ∧ s.tickEnabled = false ∧ t = s)
    ∨ (∃ raw, e = .tick raw ∧ s.tickEnabled = true ∧ tick raw s = .next t) := by
  cases e with
  | reset => cases h; exact .inl ⟨rfl, rfl⟩
  | enableTicks => cases h; exact .inr (.inl ⟨rfl, rfl⟩)
  | tickFire => cases h; exact .inr (.inr (.inl ⟨rfl, rfl⟩))
  | fatal k => cases h; exact .inr (.inr (.inr (.inl ⟨k, rfl, rfl⟩)))
  | tick raw =>
    cases ht : s.tickEnabled
    · simp [takeEvent, takeTick, ht] at h
      exact .inr (.inr (.inr (.inr (.inl ⟨raw, rfl, rfl, h.symm⟩))))
    · simp [takeEvent, takeTick, ht] at h
      exact .inr (.inr (.inr (.inr (.inr ⟨raw, rfl, rfl, h⟩))))

/-- ENABLE_TICKS sets the enable or does nothing (R147). -/
theorem enableTicks_cases (s : State) :
    (s.halted = true ∧ enableTicks s = s) ∨ (s.halted = false ∧ enableTicks s = s.setEnabled) := by
  cases h : s.halted
  · exact .inr ⟨rfl, by simp [enableTicks, h]⟩
  · exact .inl ⟨rfl, by simp [enableTicks, h]⟩

/-- FATAL enters its fault or, in a halted state, does nothing (R161, R162, R166). -/
theorem fatal_cases (k : FatalKind) (s : State) :
    (s.halted = true ∧ fatal k s = s) ∨ (s.halted = false ∧ fatal k s = s.haltWith (fatalCode k) 0) :=
  raiseFault_cases (fatalCode k) 0 s

@[simp] theorem beginStep_tickEnabled (s : State) : s.beginStep.tickEnabled = s.tickEnabled := rfl

/-- The step is a TICK exactly when it is the dispatcher's turn and TICK is enabled (R140). -/
theorem eventTaken_eq_tick {s : State} {raw : Bool} :
    eventTaken s = some (.tick raw) ↔ nextEvent s = some (.tick raw) ∧ s.tickEnabled = true := by
  unfold eventTaken
  split <;> simp [*, and_comm]

/-- Any event but TICK is the step's whenever it is due. -/
theorem eventTaken_eq_of_not_tick {s : State} {e : Event} (he : ∀ raw, e ≠ .tick raw) :
    eventTaken s = some e ↔ nextEvent s = some e := by
  unfold eventTaken
  split <;> simp [*]
  exact fun h => absurd h.symm (he _)

/-- No step of R17 is taken exactly when the turn is idle or a TICK that is not enabled. -/
theorem eventTaken_eq_none {s : State} :
    eventTaken s = none ↔ nextEvent s = none ∨ ∃ raw, nextEvent s = some (.tick raw) ∧ s.tickEnabled = false := by
  unfold eventTaken
  split <;> simp [*]

/-- A step that is no event of R17 holds the state: it only clears the outputs and uses the turn up. -/
theorem step_of_eventTaken_none {s t : State} (h : step s = .next t) (he : eventTaken s = none) :
    t = s.beginStep := by
  obtain ⟨-, ⟨-, -, rfl⟩ | ⟨e, hn, ht⟩⟩ := step_cases h
  · rfl
  · obtain h0 | ⟨raw, h1, h2⟩ := eventTaken_eq_none.1 he
    · simp [hn] at h0
    · obtain rfl : e = .tick raw := by simpa [hn] using h1
      simpa [takeEvent, takeTick, h2] using ht.symm

/-- What every step does to the outputs and to the schedule: it uses the turn up, and either it is a TICK step, with an
event_out and a trace that begins with `ack`, or it emits nothing (R18, R37, R140). -/
theorem step_outputs {s t : State} (h : step s = .next t) :
    t.cfg = s.cfg ∧ t.inbox = s.inbox.tail ∧ t.freeIndex = s.freeIndex + 1
    ∧ ((∃ raw, eventTaken s = some (.tick raw) ∧ tick raw s.beginStep = .next t)
      ∨ ((∀ raw, eventTaken s ≠ some (.tick raw)) ∧ t.eventOut = none ∧ t.trace = [])) := by
  obtain ⟨-, ⟨hn, -, rfl⟩ | ⟨e, hn, ht⟩⟩ := step_cases h
  · exact ⟨rfl, rfl, rfl, .inr ⟨by simp [eventTaken_eq_tick, hn], rfl, rfl⟩⟩
  · obtain ⟨rfl, rfl⟩ | ⟨rfl, rfl⟩ | ⟨rfl, rfl⟩ | ⟨k, rfl, rfl⟩ | ⟨raw, rfl, hd, rfl⟩ | ⟨raw, rfl, hd, hk⟩ :=
      takeEvent_cases ht
    · exact ⟨rfl, rfl, rfl, .inr ⟨by simp [eventTaken_eq_tick, hn], rfl, rfl⟩⟩
    · rcases enableTicks_cases s.beginStep with ⟨-, e⟩ | ⟨-, e⟩ <;> rw [e] <;>
        exact ⟨rfl, rfl, rfl, .inr ⟨by simp [eventTaken_eq_tick, hn], rfl, rfl⟩⟩
    · exact ⟨rfl, rfl, rfl, .inr ⟨by simp [eventTaken_eq_tick, hn], rfl, rfl⟩⟩
    · rcases fatal_cases k s.beginStep with ⟨-, e⟩ | ⟨-, e⟩ <;> rw [e] <;>
        exact ⟨rfl, rfl, rfl, .inr ⟨by simp [eventTaken_eq_tick, hn], rfl, rfl⟩⟩
    · have hoff : s.tickEnabled = false := hd
      exact ⟨rfl, rfl, rfl, .inr ⟨by simp [eventTaken_eq_tick, hoff], rfl, rfl⟩⟩
    · obtain ⟨hc, -, -, -, hi, hf, -⟩ := tick_frame hk
      exact ⟨hc, hi, hf, .inl ⟨raw, eventTaken_eq_tick.2 ⟨hn, hd⟩, hk⟩⟩

/-- A run of one step and `n` more. -/
theorem core_run_succ {n : Nat} {s u : State} :
    Sys2Proof.core.run (n + 1) s = .next u ↔ ∃ t, step s = .next t ∧ Sys2Proof.core.run n t = .next u := by
  have hs : Sys2Proof.core.step s = step s := rfl
  simp only [Host.Core.run, hs]
  cases step s <;> simp

end Sys2Proof.Machine
end

