-- ==== Sys2Proof/Tests/Slice0.lean ====
section
/-! SUPPORT. The model's own tests. Expected results are those of spec/95_test_vectors.md, named by their ids, or worked
by hand from the rule named; then, for each statement with hypotheses, a state and operands that meet them. -/

namespace Sys2Proof.Tests

open Sys2Proof.Machine

/-! ### Helpers -/

/-- The state of a step that answered one. -/
def after : Result → Option State
  | .next s => some s
  | .fault _ => none
  | .refused _ => none

/-- A configuration with THRESHOLD 2. -/
def cfg2 (song : List Word) : Config := { Config.standardWith song with threshold := 2 }

/-- An enabled block with a firing pending, the indicator off, and these turns waiting. -/
def off (song : List Word) (turns : List Event) : State :=
  { State.boot (cfg2 song) turns with ticksEnabled := true, tickPending := true }

/-- The same with the indicator on. -/
def on (song : List Word) (turns : List Event) : State := { off song turns with led := true, toneMuted := false }

/-- A halted block. -/
def stopped (turns : List Event) : State :=
  { on [0] turns with halted := true, faultCode := .illegalCommand, faultWord := 0xE0000000 }

/-- SV1 and the like: a state for one ADVANCE, with tone (440, 1). -/
def sounding (song : List Word) : State := { on song [] with toneFreq := 440, toneSounding := true }

/-! ### Well-formedness refuses ill-formed terms (R73) -/

theorem test_wf_beginNote_zero : (Instr.beginNote 0).wellFormed = false := by decide
theorem test_wf_note_pitch_zero : (Instr.note 0 3).wellFormed = false := by decide
theorem test_wf_note_dur_zero : (Instr.note 440 0).wellFormed = false := by decide
theorem test_wf_rest_zero : (Instr.rest 0).wellFormed = false := by decide
theorem test_wf_edges : (Instr.note 65535 8191).wellFormed = true ∧ (Instr.note 1 1).wellFormed = true := by decide

/-! ### Decoding, one word per constructor written out bit by bit (R70, R72; EV1 to EV20) -/

theorem test_decode_wait : decode 0b000_0000000000000_0000000000000000#32 = .ok .wait := by decide
theorem test_decode_beginNote : decode 0b001_0000000000000_0000000110111000#32 = .ok (.beginNote 440) := by decide
theorem test_decode_endNote : decode 0b010_0000000000000_0000000000000000#32 = .ok .endNote := by decide
theorem test_decode_note : decode 0b011_0000000000011_0000000110111000#32 = .ok (.note 440 3) := by decide
theorem test_decode_rest : decode 0b100_0000000000010_0000000000000000#32 = .ok (.rest 2) := by decide
theorem test_decode_reserved101 : decode 0b101_0000000000000_0000000000000101#32 = .ok (.reserved101 5) := by decide
theorem test_decode_reserved110 : decode 0b110_0000000000000_0000000110111000#32 = .ok (.reserved110 440) := by decide
theorem test_decode_reserved111 :
    decode 0b111_1111111111111_1111111111111111#32 = .ok (.reserved111 0x1FFFFFFF) := by decide

theorem test_decode_rejects :
    decode 0x00000001 = .error .payloadNotZero ∧ decode 0x20000000 = .error .pitchZero
    ∧ decode 0x200101B8 = .error .durFieldNotZero ∧ decode 0x40010000 = .error .payloadNotZero
    ∧ decode 0x600001B8 = .error .durZero ∧ decode 0x60030000 = .error .pitchZero
    ∧ decode 0x80020001 = .error .pitchFieldNotZero ∧ decode 0x80000000 = .error .durZero := by decide

theorem test_decodeTableWord :
    decodeTableWord 32 0x600301B8 = some (.note 440 3) ∧ decodeTableWord 8 0 = some .wait
    ∧ decodeTableWord 32 0x20000000 = none ∧ decodeTableWord 40 0 = none := by decide

/-- R79's words from R79's text, with a comment, a hexadecimal operand and the pseudo-instructions of R78. -/
theorem test_assembleText :
    assembleText "; P1\nBEGIN_NOTE 440\nNOTE 0x1B8 , 3 ; coarse\nREST 2\n.word 0xA0000000\nFREST 2".toList
      = some [0x200001B8, 0x600301B8, 0x80020000, 0xA0000000, 0x40000000, 0x00000000] := by decide

/-- Log 14: LF alone ends a line. -/
theorem test_assembleText_lineEnd :
    assembleText "WAIT\nWAIT".toList = some [0, 0] ∧ assembleText "WAIT\r\nWAIT".toList = none
    ∧ assembleText "WAIT ; x\r\nWAIT\n".toList = some [0, 0] := by decide

theorem test_assembleText_errors :
    assembleText "NOTE 0, 3".toList = none ∧ assembleText "REST 8192".toList = none
    ∧ assembleText "wait".toList = none ∧ assembleText "FNOTE 440, 0".toList = none := by decide

/-! ### The commands, one ADVANCE each (95_test_vectors.md section 2.3) -/

/-- SV2. -/
theorem test_wait : (after (advance (sounding [0x00000000, 0x40000000]))).map
    (fun s => (s.trace, s.srcPos, s.toneFreq, s.toneSounding)) = some ([.pull 0x00000000], 1, 440, true) := by decide

/-- SV4. -/
theorem test_beginNote : (after (advance (sounding [0x20000106]))).map
    (fun s => (s.trace, s.ticksRemaining, s.toneFreq, s.toneSounding))
      = some ([.pull 0x20000106, .play 262], 0, 262, true) := by decide

/-- SV6. -/
theorem test_endNote : (after (advance (sounding [0x40000000]))).map
    (fun s => (s.trace, s.toneFreq, s.toneSounding)) = some ([.pull 0x40000000, .silence], 440, false) := by decide

/-- SV13. -/
theorem test_note : (after (advance (on [0x7FFFFFFF] []))).map
    (fun s => (s.trace, s.ticksRemaining, s.srcPos, s.toneFreq))
      = some ([.pull 0x7FFFFFFF, .play 65535], 8191, 0, 65535) := by decide

/-- SV10: the ADVANCE that counts to 0 also pulls. -/
theorem test_rest :
    (after (advance { sounding [0x600301B8, 0x80020000] with ticksRemaining := 1, srcPos := 1 })).map
      (fun s => (s.trace, s.ticksRemaining, s.srcPos, s.toneFreq, s.toneSounding))
        = some ([.pull 0x80020000, .silence], 2, 0, 440, false) := by decide

/-- SV9: while counting, nothing is pulled. -/
theorem test_counting : (after (advance { sounding [0x600301B8, 0x80020000] with ticksRemaining := 3, srcPos := 1 })).map
    (fun s => (s.trace, s.ticksRemaining, s.srcPos)) = some ([], 2, 1) := by decide

/-- SV14, with the reserved opcode 0b111. -/
theorem test_reserved111 : (after (advance { sounding [0x200001B8, 0xE0000000] with srcPos := 1 })).map
    (fun s => (s.trace, s.srcPos, s.halted, s.faultCode, s.faultWord, s.toneSounding))
      = some ([.pull 0xE0000000], 0, true, .illegalCommand, 0xE0000000, true) := by decide

/-- R118 for the reserved opcodes 0b101 and 0b110. -/
theorem test_reserved101 : (after (advance (on [0xA0000007] []))).map (fun s => (s.halted, s.faultWord))
    = some (true, 0xA0000007) := by decide
theorem test_reserved110 : (after (advance (on [0xC00001B8] []))).map (fun s => (s.halted, s.faultWord))
    = some (true, 0xC00001B8) := by decide

/-- SV15. -/
theorem test_illegal_pitch_zero : (after (advance (on [0x20000000] []))).map
    (fun s => (s.trace, s.faultCode, s.faultWord, s.toneFreq))
      = some ([.pull 0x20000000], .illegalCommand, 0x20000000, 0) := by decide

/-! ### The debounce filter (section 2.1) -/

/-- DV3, DV4, DV5 with the default configuration. -/
theorem test_debounce_asserted :
    filterStep (Config.standardWith [0]) false .asserted 28 = (.asserted, 29, .nothing)
    ∧ filterStep (Config.standardWith [0]) false .asserted 29 = (.deasserted, 0, .pressed)
    ∧ filterStep (Config.standardWith [0]) true .asserted 29 = (.asserted, 0, .nothing) := by decide

/-- DV8, DV10. -/
theorem test_debounce_deasserted :
    filterStep (Config.standardWith [0]) true .deasserted 29 = (.asserted, 0, .released)
    ∧ filterStep (Config.standardWith [0]) false .deasserted 5 = (.deasserted, 0, .nothing) := by decide

/-- DV14, DV17. -/
theorem test_debounce_parameters :
    filterStep { Config.standardWith [0] with threshold := 255 } false .asserted 254 = (.deasserted, 0, .pressed)
    ∧ filterStep { Config.standardWith [0] with assertedLevel := false } true .asserted 29
      = (.deasserted, 0, .pressed) := by decide

/-! ### TICK, host and environment events, faults (sections 2.4 to 2.6) -/

/-- TV4 (with THRESHOLD 2). -/
theorem test_tick_press_on :
    (after (step { off [0x200001B8] [.tick false] with dbCount := 1 })).map
      (fun s => (s.trace, s.dbState, s.led, s.toneMuted, s.eventOut))
        = some ([.ack, .setLed true, .unmute, .pull 0x200001B8, .play 440], .deasserted, true, false,
            some .pressed) := by decide

/-- TV5, AV2. -/
theorem test_tick_press_off :
    (after (step { sounding [0x600501B8] with dbCount := 1, ticksRemaining := 1, inbox := [.tick false] })).map
      (fun s => (s.trace, s.led, s.toneMuted, s.toneFreq, s.toneSounding, s.ticksRemaining))
        = some ([.ack, .setLed false, .silence, .mute], false, true, 440, false, 1) := by decide

/-- AV3. -/
theorem test_tick_press_off_restart :
    (after (step { sounding [0, 0x600501B8] with
      cfg := { cfg2 [0, 0x600501B8] with rearmPolicy := .restart }
      dbCount := 1, ticksRemaining := 1, srcPos := 1, inbox := [.tick false] })).map
      (fun s => (s.trace, s.ticksRemaining, s.srcPos))
        = some ([.ack, .setLed false, .silence, .restart, .mute], 0, 0) := by decide

/-- TV6. -/
theorem test_tick_released :
    (after (step { on [0] [.tick true] with dbState := .deasserted, dbCount := 1 })).map
      (fun s => (s.trace, s.dbState, s.led, s.eventOut))
        = some ([.ack, .pull 0], .asserted, true, some .released) := by decide

/-- TV1, and its TICK turn that is not taken. -/
theorem test_tick_not_enabled :
    (after (step { off [0] [.tick true] with ticksEnabled := false })).map (fun s => (s.trace, s.tickPending))
      = some ([], true) := by decide

/-- TV2 and FV5. -/
theorem test_enableTicks :
    (after (step (State.boot (cfg2 [0]) [.enableTicks]))).map (·.ticksEnabled) = some true
    ∧ (after (step { stopped [.enableTicks] with ticksEnabled := false })).map (·.ticksEnabled) = some false := by
  decide

/-- FV1, FV3. -/
theorem test_fatal :
    (after (step { sounding [0] with inbox := [.fatal .hardFault] })).map
      (fun s => (s.halted, s.faultCode, s.faultWord, s.audible)) = some (true, .hardFault, 0, true)
    ∧ (after (step (stopped [.fatal .hardFault]))).map (fun s => (s.faultCode, s.faultWord))
      = some (.illegalCommand, 0xE0000000) := by decide

/-- FV4 and FV6. -/
theorem test_halted_events :
    (after (step { stopped [.tickFire] with tickPending := false })).map (·.tickPending) = some true
    ∧ (after (step (stopped [.reset]))).map (fun s => (s.halted, s.led, s.toneMuted, s.faultWord))
      = some (false, false, true, 0) := by decide

/-- R165 with nothing waiting. -/
theorem test_halted_is_a_fault : step (stopped []) = .fault (.halted .illegalCommand) := rfl

/-- R39: an illegal configuration has no run. -/
theorem test_illegal_configuration : step (on [] [.tickFire]) = .refused .illegalConfiguration := rfl

/-- R168. -/
theorem test_coincident : byPriority [.enableTicks, .tick true, .fatal .unexpectedInterrupt, .tickFire, .reset]
    = [.reset, .fatal .unexpectedInterrupt, .tick true, .tickFire, .enableTicks] := by decide

/-- The codes of R22, R37 and R160. -/
theorem test_codes :
    dbStateBit .asserted = true ∧ dbStateBit .deasserted = false
    ∧ [ButtonEvent.nothing, .pressed, .released].map buttonEventBits = [0, 1, 2]
    ∧ [FaultCode.none, .hardFault, .unexpectedInterrupt, .illegalCommand].map faultCodeBits = [0, 1, 2, 3] := by
  decide

/-- R30: what is heard, sounding and muted. -/
theorem test_heard :
    (sounding [0]).heard = some 440 ∧ { sounding [0] with toneMuted := true }.heard = none := by decide

/-- R18: a TICK, a TICK turn with no firing pending, which is no step (R140), and a TICK_FIRE: two steps observed. -/
theorem test_observe :
    (observe 3 (on [0x40000000] [.tick true, .tick true, .tickFire])).map (fun x => (x.1, x.2.1, x.2.2.tickPending))
      = [(.tick true, [.ack, .pull 0x40000000, .silence], false), (.tickFire, [], true)] := by decide

/-- The load: NOTE 440, 3 as the first instruction after reset. -/
theorem test_withFetchWord :
    (after (step (State.reset.withFetchWord 32 0x600301B8))).map
      (fun s => (s.trace, s.toneFreq, s.toneSounding, s.ticksRemaining))
        = some ([.ack, .pull 0x600301B8, .play 440], 440, true, 3) := by decide

/-! ### Witnesses: a state and operands that meet the hypotheses of each statement -/

theorem witness_DecodeOfEncodeIsTheInstruction : (Instr.note 65535 8191).wellFormed = true := by decide

theorem witness_EncodeOfDecodeIsTheWord : decode 0x9FFF0000 = .ok (.rest 8191) := by decide

theorem witness_LegalWordsAndTheirCounts :
    let s := on [0x60030000] []
    s.halted = false ∧ s.ticksRemaining = 0 ∧ s.cfg.song[s.srcPos]? = some 0x60030000
    ∧ legalWord 0x60030000 = false := by decide

theorem witness_operands : (1 : Pitch) ≠ 0 ∧ (65535 : Pitch) ≠ 0 ∧ (1 : Dur) ≠ 0 ∧ (8191 : Dur) ≠ 0 := by decide

theorem witness_ReservedOpcodesEnterTheFault : (on [0] []).halted = false ∧ (stopped []).halted = true := by decide

theorem witness_OutOfRangeOperandsEnterTheFault :
    (Instr.note 65535 0).wellFormed = false ∧ (on [0] []).halted = false := by decide

theorem witness_IllegalWordFaultsAfterItsPull :
    let s := { on [0xE0000000] [] with ticksRemaining := 1 }
    s.halted = false ∧ (tickFront true s).led = true ∧ (tickFront true s).ticksRemaining.toNat ≤ 1
    ∧ (tickFront true s).cfg.song[(tickFront true s).srcPos]? = some 0xE0000000
    ∧ legalWord 0xE0000000 = false := by decide

/-- Each clause of DebounceStepFollowsItsRule, with THRESHOLD 2, and the largest THRESHOLD. -/
theorem witness_DebounceStepFollowsItsRule_asserted :
    let s := on [0] []
    let u := { on [0] [] with dbCount := 1 }
    let v := { on [0] [] with cfg := { cfg2 [0] with threshold := 255 }, dbCount := 254 }
    s.dbCount.toNat < s.cfg.threshold.toNat ∧ s.dbState = .asserted ∧ true = s.cfg.assertedLevel
    ∧ false ≠ s.cfg.assertedLevel ∧ s.dbCount.toNat + 1 ≠ s.cfg.threshold.toNat
    ∧ u.dbCount.toNat < u.cfg.threshold.toNat ∧ u.dbState = .asserted
    ∧ u.dbCount.toNat + 1 = u.cfg.threshold.toNat
    ∧ v.dbCount.toNat < v.cfg.threshold.toNat ∧ v.dbCount.toNat + 1 = v.cfg.threshold.toNat := by decide

theorem witness_DebounceStepFollowsItsRule_deasserted :
    let s := { on [0] [] with dbState := .deasserted }
    let u := { s with dbCount := 1 }
    s.dbCount.toNat < s.cfg.threshold.toNat ∧ s.dbState = .deasserted ∧ false ≠ s.cfg.assertedLevel
    ∧ true = s.cfg.assertedLevel ∧ s.dbCount.toNat + 1 ≠ s.cfg.threshold.toNat
    ∧ u.dbCount.toNat < u.cfg.threshold.toNat ∧ u.dbCount.toNat + 1 = u.cfg.threshold.toNat := by decide

theorem witness_CounterStepsByOneOrClears :
    let s := { off [0] [.tick false] with dbCount := 1 }
    ∃ t, step s = .next t ∧ t.dbState ≠ s.dbState ∧ nextEvent s ≠ some .reset := ⟨_, rfl, by decide, by decide⟩

/-- A press and, from the other side, a release; each event is met. -/
theorem witness_EventIffWindowOfContrarySamples :
    (cfg2 [0]).threshold ≠ 0
    ∧ (filterStep (cfg2 [0]) false (filterEnd (cfg2 [0]) .asserted 0 [true, false]).1
        (filterEnd (cfg2 [0]) .asserted 0 [true, false]).2).2.2 = .pressed
    ∧ (filterStep (cfg2 [0]) true (filterEnd (cfg2 [0]) .deasserted 0 [true]).1
        (filterEnd (cfg2 [0]) .deasserted 0 [true]).2).2.2 = .released := by decide

theorem witness_BoundaryOfTheThreshold :
    (1 : BitVec 8) ≠ 0 ∧ (255 : BitVec 8) ≠ 0 ∧ (Config.standardWith [0]).threshold ≠ 0 := by decide

theorem witness_EventsAlternateAndAreThresholdApart :
    let raws := [false, false, true, true, false, false]
    (cfg2 [0]).threshold ≠ 0 ∧ (filterEvents (cfg2 [0]) .asserted 0 raws)[5]? = some .pressed
    ∧ (filterEvents (cfg2 [0]) .asserted 0 raws)[1]? = some .pressed
    ∧ (filterEvents (cfg2 [0]) .asserted 0 raws)[3]? = some .released := by decide

/-- Counting at its least, 2; a due pull from 1 and from 0, of a legal and of an illegal word. -/
theorem witness_AdvanceFollowsItsRule :
    let s := on [0x200001B8, 0xE0000000] []
    s.halted = false ∧ s.srcPos < s.cfg.song.length
    ∧ 1 < { s with ticksRemaining := 2 }.ticksRemaining.toNat
    ∧ { s with ticksRemaining := 1 }.ticksRemaining.toNat ≤ 1 ∧ s.ticksRemaining.toNat ≤ 1
    ∧ s.cfg.song[0]? = some 0x200001B8 ∧ decode 0x200001B8 = .ok (.beginNote 440)
    ∧ (Instr.beginNote 440).legal = true
    ∧ s.cfg.song[1]? = some 0xE0000000 ∧ 1 < s.cfg.song.length ∧ legalWord 0xE0000000 = false := by decide

theorem witness_CoarseCommandOwnsItsDuration :
    (8191 : Dur) ≠ 0 ∧ 8190 < (8191 : Dur).toNat ∧ (on [0] []).cfg.song[(on [0] []).srcPos]? = some 0 := by decide

/-- A pull, a restart, a RESET and a step that does none of them. -/
theorem witness_SourcePositionMovesOnlyByPull :
    (∃ t, step (on [0] [.tick true]) = .next t ∧ .pull 0 ∈ t.trace)
    ∧ (∃ t, step { on [0] [.tick false] with
        cfg := { cfg2 [0] with rearmPolicy := .restart }, dbCount := 1 } = .next t ∧ .restart ∈ t.trace)
    ∧ (∃ t, step (on [0] [.reset]) = .next t) ∧ nextEvent (on [0] [.reset]) = some .reset
    ∧ ∃ t, step (on [0] [.tickFire]) = .next t ∧ t.trace = [] :=
  ⟨⟨_, rfl, by decide⟩, ⟨_, rfl, by decide⟩, ⟨_, rfl⟩, rfl, ⟨_, rfl, rfl⟩⟩

theorem witness_AtMostOnePullPerStep :
    ∃ t, step (on [0] [.tick true]) = .next t ∧ (t.trace.filter isPull).length = 1 := ⟨_, rfl, by decide⟩

/-- A loaded duration and one tick off it. -/
theorem witness_TicksRemainingNeverWraps :
    (∃ t, step (on [0x7FFFFFFF] [.tick true]) = .next t ∧ t.ticksRemaining = 8191)
    ∧ ∃ t, step { on [0] [.tick true] with ticksRemaining := 8191 } = .next t ∧ t.ticksRemaining = 8190 :=
  ⟨⟨_, rfl, by decide⟩, ⟨_, rfl, by decide⟩⟩

theorem witness_DisarmedTicksAreSilent :
    let s := off [0] [.tick true]
    let u := { on [0] [.tick false] with dbCount := 1 }
    s.typed = true ∧ s.tickEnabled = true ∧ s.led = false ∧ debounceEvent true s ≠ .pressed
    ∧ u.typed = true ∧ u.tickEnabled = true ∧ u.led = true ∧ debounceEvent false u = .pressed := by decide

/-- P2: one period of 5 ticks and the tick after it, all with the indicator on. -/
theorem witness_ToneActionsRepeatWithTheSongPeriod :
    let s := on [0x600301B8, 0x80020000] []
    s.typed = true ∧ s.ticksEnabled = true ∧ s.halted = false ∧ s.led = true ∧ s.srcPos = 0 ∧ s.ticksRemaining = 0
    ∧ (∀ w ∈ s.cfg.song, legalWord w = true) ∧ songTicks s.cfg.song = 5
    ∧ (tickStates (List.replicate 6 true) s).map (fun ts => ts.map (·.led)) = some (List.replicate 6 true)
    ∧ (tickStates (List.replicate 6 true) s).map (fun ts => ts.map toneActions)
        = some [[.play 440], [], [], [.silence], [], [.play 440]] :=
  ⟨by decide, by decide, by decide, by decide, by decide, by decide,
    by simp [on, off, State.boot, cfg2, Config.standardWith]; decide, by decide, rfl, rfl⟩

theorem witness_FineAndCoarseFormsSoundAlike :
    let lines := [AsmLine.note 440 3, .rest 2]
    assemble lines = some [0x600301B8, 0x80020000]
    ∧ assemble (lines.map fineForm) = some [0x200001B8, 0, 0, 0x40000000, 0]
    ∧ (on [0] []).typed = true ∧ (on [0] []).srcPos = 0 ∧ (on [0] []).ticksRemaining = 0 := by decide

theorem witness_StepRunsTheDecodedInstruction :
    let s := { off [0x200001B8] [.tick false] with dbCount := 1 }
    let u := on [0x20000000] [.tick true]
    s.typed = true ∧ s.tickEnabled = true ∧ (tickFront false s.beginStep).led = true
    ∧ (tickFront false s.beginStep).ticksRemaining.toNat ≤ 1
    ∧ (tickFront false s.beginStep).cfg.song[(tickFront false s.beginStep).srcPos]? = some 0x200001B8
    ∧ decode 0x200001B8 = .ok (.beginNote 440)
    ∧ u.typed = true ∧ u.tickEnabled = true ∧ (tickFront true u.beginStep).led = true
    ∧ (tickFront true u.beginStep).ticksRemaining.toNat ≤ 1
    ∧ (tickFront true u.beginStep).cfg.song[(tickFront true u.beginStep).srcPos]? = some 0x20000000
    ∧ decode 0x20000000 = .error .pitchZero := by decide

theorem witness_LoadedWordRunsNext : decodeTableWord 32 0x9FFF0000 = some (.rest 8191) := by decide

theorem witness_TickIsTakenExactlyWhenEnabled :
    let s := on [0] [.tick true]
    (s.typed = true ∧ s.srcPos < s.cfg.song.length ∧ s.inbox = .tick true :: []
      ∧ s.ticksEnabled = true ∧ s.tickPending = true ∧ s.halted = false)
    ∧ ∃ t, step s = .next t ∧ t.eventOut ≠ none := ⟨by decide, ⟨_, rfl, by decide⟩⟩

theorem witness_TurnWithoutTickHoldsTheState :
    (stopped [.tick true]).typed = true ∧ (stopped [.tick true]).tickEnabled = false := by decide

/-- No press off and on; a press off; a press on under each policy. -/
theorem witness_ToggleAndAdvanceFollowTheirRules :
    let s := off [0] [.tick true]
    let u := { off [0] [.tick false] with dbCount := 1 }
    let v := { on [0] [.tick false] with dbCount := 1 }
    s.typed = true ∧ s.tickEnabled = true ∧ (filterStep s.cfg true s.dbState s.dbCount).2.2 ≠ .pressed
    ∧ s.led = false ∧ (on [0] [.tick true]).led = true
    ∧ u.typed = true ∧ u.tickEnabled = true ∧ (filterStep u.cfg false u.dbState u.dbCount).2.2 = .pressed
    ∧ v.led = true ∧ v.cfg.rearmPolicy = .resume
    ∧ { v with cfg := { v.cfg with rearmPolicy := .restart } }.typed = true := by decide

theorem witness_PressResumesPlaybackOnTheSameTick :
    let s := { off [0x200001B8] [.tick false] with dbCount := 1 }
    s.typed = true ∧ s.tickEnabled = true ∧ s.led = false ∧ debounceEvent false s = .pressed
    ∧ s.ticksRemaining.toNat ≤ 1 ∧ s.cfg.song[s.srcPos]? = some 0x200001B8
    ∧ decode 0x200001B8 = .ok (.beginNote 440) ∧ (Instr.beginNote 440).legal = true := by decide

theorem witness_OutputsFollowTheTrace :
    ∃ t, step (on [0x200001B8] [.tick true]) = .next t ∧ nextEvent (on [0x200001B8] [.tick true]) ≠ some .reset
      ∧ t.toneFreq = 440 := ⟨_, rfl, by decide, by decide⟩

theorem witness_TickFireOnlySetsPending : (stopped [.tickFire]).typed = true := by decide

theorem witness_EnableTicksUnlessHalted :
    (off [0] [.enableTicks]).typed = true ∧ (off [0] [.enableTicks]).halted = false
    ∧ (stopped [.enableTicks]).typed = true ∧ (stopped [.enableTicks]).halted = true := by decide

theorem witness_FaultEntryKeepsTheFirstFault :
    (on [0] [.fatal .hardFault]).typed = true ∧ (on [0] [.fatal .hardFault]).halted = false
    ∧ (stopped [.fatal .unexpectedInterrupt]).typed = true
    ∧ (stopped [.fatal .unexpectedInterrupt]).halted = true := by decide

theorem witness_ResetKeepsConfigurationAndTurns : (stopped [.reset, .tickFire]).typed = true := by decide

theorem witness_ResetInstallsTheResetValues : (stopped [.reset]).typed = true := by decide

/-- A FATAL, an ENABLE_TICKS and a TICK_FIRE, each reaching its own fields. -/
theorem witness_OnlyTickMovesTheStateMachines :
    let s := on [0] [.fatal .hardFault]
    let u := State.boot (cfg2 [0]) [.enableTicks]
    let v := State.boot (cfg2 [0]) [.tickFire]
    (∃ t, step s = .next t ∧ t.halted ≠ s.halted) ∧ nextEvent s ≠ some .reset
    ∧ (∀ e, nextEvent s = some e → eventAgent e ≠ .dispatcher)
    ∧ (∃ t, step u = .next t ∧ t.ticksEnabled ≠ u.ticksEnabled) ∧ nextEvent u ≠ some .reset
    ∧ (∀ e, nextEvent u = some e → eventAgent e ≠ .dispatcher)
    ∧ (∃ t, step v = .next t ∧ t.tickPending ≠ v.tickPending) ∧ nextEvent v ≠ some .reset
    ∧ ∀ e, nextEvent v = some e → eventAgent e ≠ .dispatcher :=
  ⟨⟨_, rfl, by decide⟩, by decide, by intro e h; cases h; decide, ⟨_, rfl, by decide⟩, by decide,
    by intro e h; cases h; decide, ⟨_, rfl, by decide⟩, by decide, by intro e h; cases h; decide⟩

/-- The enable set and cleared, the firing set and cleared. -/
theorem witness_TickFlagsMoveOnlyByTheirEvents :
    (∃ t, step (on [0] [.reset]) = .next t ∧ t.ticksEnabled = false ∧ t.tickPending = false)
    ∧ (∃ t, step (State.boot (cfg2 [0]) [.enableTicks]) = .next t ∧ t.ticksEnabled = true)
    ∧ (∃ t, step (State.boot (cfg2 [0]) [.tickFire]) = .next t ∧ t.tickPending = true)
    ∧ ∃ t, step (on [0] [.tick true]) = .next t ∧ t.tickPending = false :=
  ⟨⟨_, rfl, rfl, rfl⟩, ⟨_, rfl, rfl⟩, ⟨_, rfl, rfl⟩, ⟨_, rfl, rfl⟩⟩

/-- A turn before ENABLE_TICKS, and a run in which ENABLE_TICKS comes later. -/
theorem witness_NoTickBeforeEnable :
    let turns := [Event.tickFire, .tick false, .enableTicks, .tick false]
    ((State.boot (cfg2 [0]) [.tick false]).ticksEnabled = false
      ∧ nextEvent (State.boot (cfg2 [0]) [.tick false]) ≠ some .enableTicks
      ∧ ∃ t, step (State.boot (cfg2 [0]) [.tick false]) = .next t)
    ∧ .enableTicks ∉ turns.take 2 ∧ ∃ t, Sys2Proof.core.run 2 (State.boot (cfg2 [0]) turns) = .next t :=
  ⟨⟨rfl, by decide, ⟨_, rfl⟩⟩, by decide, ⟨_, rfl⟩⟩

/-- Two turns of a bring-up that never enables, one of them a fatal condition. -/
theorem witness_BringUpWithoutEnableStaysInReset :
    let turns := [Event.tickFire, .fatal .hardFault]
    .enableTicks ∉ turns.take 2
    ∧ ∃ t, Sys2Proof.core.run 2 (State.boot (cfg2 [0]) turns) = .next t ∧ t.halted = true ∧ t.tickPending = true :=
  ⟨by decide, ⟨_, rfl, rfl, rfl⟩⟩

theorem witness_EnabledTickIsTakenWithAFreeSample :
    (on [0] []).typed = true ∧ (on [0] []).inbox = [] ∧ (on [0] []).tickEnabled = true
    ∧ (on [0] []).srcPos < (on [0] []).cfg.song.length := by decide

theorem witness_CoincidentEventsAreOrdered :
    (on [0] []).typed = true ∧ (on [0] []).inbox = [] ∧ (on [0] []).halted = false := by decide

/-- A step taken; a TICK and a TICK_FIRE observed, a turn without TICK, and an idle block. -/
theorem witness_ObservationIsTheStepsTaken_taken :
    ∃ t, step (on [0] [.tick true]) = .next t ∧ eventTaken (on [0] [.tick true]) = some (.tick true) :=
  ⟨_, rfl, rfl⟩

theorem witness_ObservationIsTheStepsTaken :
    (∃ x ∈ observe 2 (on [0] [.tick true, .tickFire]), x.1 = .tick true)
    ∧ (∃ x ∈ observe 2 (on [0] [.tick true, .tickFire]), x.1 = .tickFire)
    ∧ (State.boot (cfg2 [0]) [.tick true]).typed = true
    ∧ (State.boot (cfg2 [0]) [.tick true]).tickEnabled = false
    ∧ (State.boot (cfg2 [0]) []).typed = true ∧ (State.boot (cfg2 [0]) []).inbox = []
    ∧ (State.boot (cfg2 [0]) []).tickEnabled = false ∧ (State.boot (cfg2 [0]) []).halted = false := by decide

/-- RESET, and an event that is not RESET. -/
theorem witness_HaltedHoldsUntilReset :
    (stopped [.reset]).halted = true ∧ nextEvent (stopped [.reset]) = some .reset
    ∧ (∃ t, step (stopped [.reset]) = .next t)
    ∧ nextEvent (stopped [.tick true]) ≠ some .reset ∧ ∃ t, step (stopped [.tick true]) = .next t :=
  ⟨rfl, rfl, ⟨_, rfl⟩, by decide, ⟨_, rfl⟩⟩

theorem witness_HaltedWithNoTurnIsAFault :
    (stopped []).typed = true ∧ (stopped []).halted = true ∧ (stopped []).inbox = []
    ∧ (stopped [.tick true]).typed = true ∧ (stopped [.tick true]).inbox ≠ [] := by decide

/-- By FATAL, and by an illegal word. -/
theorem witness_OnlyFatalOrAnIllegalWordHalts :
    (∃ t, step (on [0] [.fatal .hardFault]) = .next t ∧ t.halted = true)
    ∧ (on [0] [.fatal .hardFault]).halted = false
    ∧ (∃ t, step (on [0xE0000000] [.tick true]) = .next t ∧ t.halted = true)
    ∧ (on [0xE0000000] [.tick true]).halted = false :=
  ⟨⟨_, rfl, rfl⟩, rfl, ⟨_, rfl, rfl⟩, rfl⟩

/-- A pull as the second step of a run. -/
theorem witness_ConfigurationIsFixed :
    ∃ u t, Sys2Proof.core.run 1 (on [0] [.tickFire, .tick true]) = .next u ∧ step u = .next t ∧ .pull 0 ∈ t.trace :=
  ⟨_, _, rfl, rfl, by decide⟩

/-- Each illegal parameter, and the least illegal counter. -/
theorem witness_IllegalConfigurationHasNoRun :
    ({ cfg2 [0] with threshold := 0 } : Config).threshold = 0 ∧ (cfg2 []).song = []
    ∧ ({ cfg2 [0] with tickPeriodUs := 0 } : Config).tickPeriodUs = 0
    ∧ (cfg2 [0]).threshold.toNat ≤ ({ on [0] [] with dbCount := 2 } : State).dbCount.toNat := by decide

theorem witness_ResetMeetsTheInvariants : configLegal (cfg2 [0]) = true := by decide

theorem on_inv : (on [0x200001B8] [.tick true]).Inv :=
  ⟨by decide, by decide, by decide, by decide, by decide, by decide⟩

theorem witness_StepKeepsTheInvariants :
    (on [0x200001B8] [.tick true]).Inv ∧ ∃ t, step (on [0x200001B8] [.tick true]) = .next t := ⟨on_inv, ⟨_, rfl⟩⟩

/-- A booted block, and the state a step later. -/
theorem witness_ReachableStatesMeetTheInvariants :
    configLegal (cfg2 [0]) = true ∧ Reachable (cfg2 [0]) (State.boot (cfg2 [0]) [.tickFire])
    ∧ ∃ t, Reachable (cfg2 [0]) t ∧ t.tickPending = true :=
  ⟨by decide, .boot _, _, .step (.boot [.tickFire]) rfl, rfl⟩

theorem witness_LegalSongRunsWithoutFault :
    let s := on [0x200001B8] [.tick true]
    s.Inv ∧ configLegal s.cfg = true ∧ s.halted = false ∧ (∀ w ∈ s.cfg.song, legalWord w = true)
    ∧ ∀ k, .fatal k ∉ s.inbox := 
  ⟨on_inv, by decide, by decide, by simp [on, off, State.boot, cfg2, Config.standardWith]; decide,
    by simp [on, off, State.boot]⟩

/-- Both ends of each operand range, and the values just outside. -/
theorem witness_AssembledLinesGiveTheirWords :
    (1 ≤ 65535 ∧ 65535 ≤ 65535) ∧ ¬ (1 ≤ 0 ∧ 0 ≤ 65535) ∧ ¬ (1 ≤ 65536 ∧ 65536 ≤ 65535)
    ∧ (1 ≤ 8191 ∧ 8191 ≤ 8191) ∧ ¬ (1 ≤ 8192 ∧ 8192 ≤ 8191) ∧ 4294967295 < 2 ^ 32 := by decide

theorem witness_PseudoInstructionsExpand :
    (1 ≤ 65535 ∧ 65535 ≤ 65535) ∧ ¬ (1 ≤ 65536 ∧ 65536 ≤ 65535)
    ∧ assemble [.fnote 440 2] = some [0x200001B8, 0] ∧ assemble [.frest 1] = some [0x40000000] := by decide

theorem witness_AssembledStreamsAreLegal :
    assemble [.note 440 3, .waitn 2] = some [0x600301B8, 0, 0] ∧ (∀ v, .word v ∉ [AsmLine.note 440 3, .waitn 2])
    ∧ assembleLine (.fnote 440 2) = some [0x200001B8, 0] ∧ assembleLine (.frest 1) = some [0x40000000]
    ∧ assembleLine (.note 440 3) = some [0x600301B8] ∧ assembleLine (.rest 8191) = some [0x9FFF0000]
    ∧ assembleLine (.waitn 0) = some [] :=
  ⟨by decide, by simp, by decide, by decide, by decide, by decide, by decide⟩

end Sys2Proof.Tests
end

/-! ### The command source's position (R21) -/

namespace Sys2Proof.Machine

/-- The two actions that move `src_pos`: `pull` and `restart` (R112, R121). -/
def isSourceAction : Action → Bool
  | .pull _ => true
  | .restart => true
  | .ack => false
  | .setLed _ => false
  | .play _ => false
  | .silence => false
  | .mute => false
  | .unmute => false

/-- The actions of the latest step that move `src_pos`, in order. -/
def sourceActions (s : State) : List Action := s.trace.filter isSourceAction

theorem pull_mem_trace_iff {s : State} {w : Word} : .pull w ∈ s.trace ↔ .pull w ∈ sourceActions s := by
  simp [sourceActions, isSourceAction]

theorem restart_mem_trace_iff {s : State} : .restart ∈ s.trace ↔ .restart ∈ sourceActions s := by
  simp [sourceActions, isSourceAction]

/-- What an execution may do to the command source, beginning in `s` and ending in `t`, with `acts` the source actions
in between: hold the position, take the word at it and move on by one, or go back to 0. -/
inductive SourceMove (s t : State) : List Action → Prop where
  | held (hp : t.srcPos = s.srcPos) : SourceMove s t []
  | pulled (w : Word) (hw : s.cfg.song[s.srcPos]? = some w)
      (hp : t.srcPos = (s.srcPos + 1) % s.cfg.song.length) : SourceMove s t [.pull w]
  | restarted (hp : t.srcPos = 0) : SourceMove s t [.restart]

/-- The start of a step leaves SONG and `src_pos` alone. -/
theorem SourceMove.of_beginStep {s t : State} {acts : List Action} (h : SourceMove s.beginStep t acts) :
    SourceMove s t acts := by
  cases h with
  | held hp => exact .held hp
  | pulled w hw hp => exact .pulled w hw hp
  | restarted hp => exact .restarted hp

/-- Running a command emits no source action: only the pull before it does. -/
theorem ExecResult.sourceActions_eq {s t : State} (h : ExecResult s t) : sourceActions t = sourceActions s := by
  cases h with
  | illegal w => rcases raiseFault_cases .illegalCommand w s with ⟨-, e⟩ | ⟨-, e⟩ <;> simp [e, sourceActions]
  | _ => simp [sourceActions, isSourceAction]

theorem ExecResult.srcPos_eq {s t : State} (h : ExecResult s t) : t.srcPos = s.srcPos := by
  obtain ⟨-, -, -, -, -, -, -, hp, -⟩ := h.frame
  exact hp

/-- ADVANCE holds the position or makes one pull. -/
theorem advance_source {s t : State} (h : advance s = .next t) :
    (t.srcPos = s.srcPos ∧ sourceActions t = sourceActions s)
    ∨ ∃ w, s.cfg.song[s.srcPos]? = some w ∧ t.srcPos = (s.srcPos + 1) % s.cfg.song.length
        ∧ sourceActions t = sourceActions s ++ [.pull w] := by
  obtain ⟨-, rfl⟩ | ⟨-, w, hw, hr⟩ := advance_cases h
  · exact .inl ⟨rfl, rfl⟩
  · have hx := runWord_inv hr
    refine .inr ⟨w, hw, hx.srcPos_eq, ?_⟩
    rw [hx.sourceActions_eq]
    simp [sourceActions, isSourceAction]

/-- Steps 1 to 3 of a TICK hold the position, or restart the source and leave the indicator off. -/
theorem tickFront_source (raw : Bool) (s : State) :
    ((tickFront raw s).srcPos = s.srcPos ∧ sourceActions (tickFront raw s) = sourceActions s)
    ∨ ((tickFront raw s).led = false ∧ (tickFront raw s).srcPos = 0
        ∧ sourceActions (tickFront raw s) = sourceActions s ++ [.restart]) := by
  obtain ⟨-, e⟩ | ⟨-, -, e⟩ | ⟨-, -, e⟩ := tickFront_cases raw s
  · exact .inl (by simp [e, sampled_eq, sourceActions, isSourceAction])
  · exact .inl (by simp [e, sampled_eq, sourceActions, isSourceAction])
  · obtain ⟨-, ed⟩ | ⟨-, ed⟩ := disarm_cases ((sampled raw s).setLed false)
    · rw [ed] at e
      exact .inl (by simp [e, sampled_eq, sourceActions, isSourceAction])
    · rw [ed] at e
      exact .inr (by simp [e, sampled_eq, sourceActions, isSourceAction, List.filter_cons])

/-- A TICK moves the source at most once: a restart leaves the indicator off, so no pull follows it (R144). -/
theorem tick_source {raw : Bool} {s t : State} (h : tick raw s = .next t) (hs : s.trace = []) :
    SourceMove s t (sourceActions t) := by
  have hs : sourceActions s = [] := by simp [sourceActions, hs]
  obtain ⟨hc, -⟩ := tickFront_frame raw s
  have hf := tickFront_source raw s
  rw [hs] at hf
  obtain ⟨-, rfl⟩ | ⟨hon, ha⟩ := tick_cases h
  · obtain ⟨hp, hacts⟩ | ⟨-, hp, hacts⟩ := hf <;> rw [hacts]
    · exact .held hp
    · exact .restarted hp
  · obtain ⟨fp, facts⟩ | ⟨hoff, -⟩ := hf
    · have hadv := advance_source ha
      rw [hc, fp, facts] at hadv
      obtain ⟨hp, hacts⟩ | ⟨w, hw, hp, hacts⟩ := hadv <;> rw [hacts]
      · exact .held hp
      · exact .pulled w hw hp
    · simp [hon] at hoff

/-- Every step but RESET is a `SourceMove` of its own trace. -/
theorem step_source {s t : State} (h : step s = .next t) (hr : nextEvent s ≠ some .reset) :
    SourceMove s t (sourceActions t) := by
  obtain ⟨-, ⟨-, -, rfl⟩ | ⟨e, hn, ht⟩⟩ := step_cases h
  · exact .held rfl
  · obtain ⟨rfl, -⟩ | ⟨-, rfl⟩ | ⟨-, rfl⟩ | ⟨k, -, rfl⟩ | ⟨raw, -, -, rfl⟩ | ⟨raw, -, -, hk⟩ := takeEvent_cases ht
    · exact absurd hn hr
    · obtain ⟨-, e⟩ | ⟨-, e⟩ := enableTicks_cases s.beginStep <;> rw [e] <;> exact .held rfl
    · exact .held rfl
    · obtain ⟨-, e⟩ | ⟨-, e⟩ := fatal_cases k s.beginStep <;> rw [e] <;> exact .held rfl
    · exact .held rfl
    · exact (tick_source hk rfl).of_beginStep

theorem step_reset_srcPos {s t : State} (h : step s = .next t) (hr : nextEvent s = some .reset) : t.srcPos = 0 := by
  obtain ⟨-, ⟨hn, -⟩ | ⟨e, hn, ht⟩⟩ := step_cases h
  · simp [hr] at hn
  · obtain rfl : e = .reset := by simpa [hr] using hn.symm
    cases ht
    rfl

/-- Settles O21: at most one source action per step, and `src_pos` follows it. -/
theorem sourcePositionMovesOnlyByPull : Obligations.SourcePositionMovesOnlyByPull := by
  intro s t h
  refine ⟨step_reset_srcPos h, fun hr => ?_⟩
  simp only [pull_mem_trace_iff, restart_mem_trace_iff]
  have hm := step_source h hr
  generalize sourceActions t = acts at hm ⊢
  cases hm with
  | held hp => simp [hp]
  | pulled w hw hp => simp [hw, hp]
  | restarted hp => simp [hp]

end Sys2Proof.Machine

/-! ### The configuration is fixed for the run (R39, R58) -/

namespace Sys2Proof.Machine

theorem step_cfg {s t : State} (h : step s = .next t) : t.cfg = s.cfg := by
  obtain ⟨hc, -⟩ := step_outputs h
  exact hc

theorem core_run_cfg {n : Nat} {s u : State} (h : Sys2Proof.core.run n s = .next u) : u.cfg = s.cfg := by
  induction n generalizing s with
  | zero => cases h; rfl
  | succ n ih =>
    obtain ⟨t, hs, ht⟩ := core_run_succ.1 h
    exact (ih ht).trans (step_cfg hs)

/-- A `SourceMove` that pulls takes the word at the position it begins in. -/
theorem SourceMove.song_of_pull_mem {s t : State} {acts : List Action} {w : Word} (h : SourceMove s t acts)
    (hw : .pull w ∈ acts) : s.cfg.song[s.srcPos]? = some w := by
  cases h with
  | held hp => simp at hw
  | pulled v hv hp =>
    obtain rfl : w = v := by simpa using hw
    exact hv
  | restarted hp => simp at hw

/-- The word a step pulls is the one its own SONG has at `src_pos` (R112): only a TICK emits anything at all. -/
theorem step_pull_song {s t : State} {w : Word} (h : step s = .next t) (hw : .pull w ∈ t.trace) :
    s.cfg.song[s.srcPos]? = some w := by
  obtain ⟨-, -, -, ⟨raw, -, hk⟩ | ⟨-, -, htr⟩⟩ := step_outputs h
  · exact (tick_source hk rfl).of_beginStep.song_of_pull_mem (pull_mem_trace_iff.1 hw)
  · simp [htr] at hw

/-- Settles O47: every step keeps the configuration, so the SONG a step pulls from is that of the run's start. -/
theorem configurationIsFixed : Obligations.ConfigurationIsFixed := by
  intro n s u t hrun hstep
  have hu : u.cfg = s.cfg := core_run_cfg hrun
  refine ⟨(step_cfg hstep).trans hu, fun w hw => ?_⟩
  rw [← hu]
  exact step_pull_song hstep hw

end Sys2Proof.Machine

/-! ### The fields of an instruction's word (R70 to R72) -/

namespace Sys2Proof

/-- The opcode field of any instruction's word is its opcode (R72). -/
@[simp] theorem opField_encode (i : Instr) : opField (encode i) = i.opcode := by
  cases i with
  | wait => exact Laws.OpcodeField.wait
  | beginNote p => exact Laws.OpcodeField.beginNote p
  | endNote => exact Laws.OpcodeField.endNote
  | note p d => exact Laws.OpcodeField.note p d
  | rest d => exact Laws.OpcodeField.rest d
  | reserved101 x => exact Laws.OpcodeField.reserved101 x
  | reserved110 x => exact Laws.OpcodeField.reserved110 x
  | reserved111 x => exact Laws.OpcodeField.reserved111 x

@[simp] theorem payloadField_encode_wait : payloadField (encode .wait) = 0 := by decide

@[simp] theorem payloadField_encode_endNote : payloadField (encode .endNote) = 0 := by decide

@[simp] theorem durField_encode_beginNote (p : Pitch) : durField (encode (.beginNote p)) = 0 := by
  simpa [encode] using show durField 0x20000000#32 = 0 by decide

@[simp] theorem pitchField_encode_beginNote (p : Pitch) : pitchField (encode (.beginNote p)) = p := by
  simp [encode, show pitchField 0x20000000#32 = 0 by decide]

@[simp] theorem durField_encode_note (p : Pitch) (d : Dur) : durField (encode (.note p d)) = d := by
  simp [encode, show durField 0x60000000#32 = 0 by decide]

@[simp] theorem pitchField_encode_note (p : Pitch) (d : Dur) : pitchField (encode (.note p d)) = p := by
  simp [encode, show pitchField 0x60000000#32 = 0 by decide]

@[simp] theorem durField_encode_rest (d : Dur) : durField (encode (.rest d)) = d := by
  simp [encode, show durField 0x80000000#32 = 0 by decide]

@[simp] theorem pitchField_encode_rest (d : Dur) : pitchField (encode (.rest d)) = 0 := by
  simpa [encode] using show pitchField 0x80000000#32 = 0 by decide

@[simp] theorem payloadField_encode_reserved101 (x : Payload) : payloadField (encode (.reserved101 x)) = x := by
  simp [encode, show payloadField 0xA0000000#32 = 0 by decide]

@[simp] theorem payloadField_encode_reserved110 (x : Payload) : payloadField (encode (.reserved110 x)) = x := by
  simp [encode, show payloadField 0xC0000000#32 = 0 by decide]

@[simp] theorem payloadField_encode_reserved111 (x : Payload) : payloadField (encode (.reserved111 x)) = x := by
  simp [encode, show payloadField 0xE0000000#32 = 0 by decide]

/-! ### The decoder, one rule per row of the opcode table (R75) -/

theorem decode_of_opField_wait {w : Word} (h : opField w = 0b000#3) : decode w = decodeWait w := if_pos h

theorem decode_of_opField_beginNote {w : Word} (h : opField w = 0b001#3) : decode w = decodeBeginNote w := by
  simp [decode, h]

theorem decode_of_opField_endNote {w : Word} (h : opField w = 0b010#3) : decode w = decodeEndNote w := by
  simp [decode, h]

theorem decode_of_opField_note {w : Word} (h : opField w = 0b011#3) : decode w = decodeNote w := by
  simp [decode, h]

theorem decode_of_opField_rest {w : Word} (h : opField w = 0b100#3) : decode w = decodeRest w := by
  simp [decode, h]

theorem decode_of_opField_reserved101 {w : Word} (h : opField w = 0b101#3) :
    decode w = .ok (.reserved101 (payloadField w)) := by
  simp [decode, h]

theorem decode_of_opField_reserved110 {w : Word} (h : opField w = 0b110#3) :
    decode w = .ok (.reserved110 (payloadField w)) := by
  simp [decode, h]

theorem decode_of_opField_reserved111 {w : Word} (h : opField w = 0b111#3) :
    decode w = .ok (.reserved111 (payloadField w)) := by
  simp [decode, h]

theorem decodeWait_eq_ok_iff {w : Word} {i : Instr} : decodeWait w = .ok i ↔ payloadField w = 0 ∧ .wait = i := by
  by_cases hx : payloadField w = 0#29 <;> simp [decodeWait, hx]

theorem decodeBeginNote_eq_ok_iff {w : Word} {i : Instr} :
    decodeBeginNote w = .ok i ↔ durField w = 0 ∧ pitchField w ≠ 0 ∧ .beginNote (pitchField w) = i := by
  by_cases hd : durField w = 0#13 <;> by_cases hp : pitchField w = 0#16 <;> simp [decodeBeginNote, hd, hp]

theorem decodeEndNote_eq_ok_iff {w : Word} {i : Instr} :
    decodeEndNote w = .ok i ↔ payloadField w = 0 ∧ .endNote = i := by
  by_cases hx : payloadField w = 0#29 <;> simp [decodeEndNote, hx]

theorem decodeNote_eq_ok_iff {w : Word} {i : Instr} :
    decodeNote w = .ok i ↔ durField w ≠ 0 ∧ pitchField w ≠ 0 ∧ .note (pitchField w) (durField w) = i := by
  by_cases hd : durField w = 0#13 <;> by_cases hp : pitchField w = 0#16 <;> simp [decodeNote, hd, hp]

theorem decodeRest_eq_ok_iff {w : Word} {i : Instr} :
    decodeRest w = .ok i ↔ durField w ≠ 0 ∧ pitchField w = 0 ∧ .rest (durField w) = i := by
  by_cases hd : durField w = 0#13 <;> by_cases hp : pitchField w = 0#16 <;> simp [decodeRest, hd, hp]

/-! ### Decode and encode are inverse to each other (30_encoding.md section 2) -/

theorem opcode_cases (o : BitVec 3) : o = 0b000#3 ∨ o = 0b001#3 ∨ o = 0b010#3 ∨ o = 0b011#3 ∨ o = 0b100#3
    ∨ o = 0b101#3 ∨ o = 0b110#3 ∨ o = 0b111#3 := by
  revert o; decide

/-- What the decoder reads is the one well-formed instruction whose word it was given. -/
theorem eq_encode_of_decode {w : Word} {i : Instr} (h : decode w = .ok i) : w = encode i ∧ i.wellFormed = true := by
  obtain ho | ho | ho | ho | ho | ho | ho | ho := opcode_cases (opField w)
  · rw [decode_of_opField_wait ho, decodeWait_eq_ok_iff] at h
    obtain ⟨hx, rfl⟩ := h
    exact ⟨word_ext_payload (by simp [ho, Instr.opcode]) (by simp [hx]), rfl⟩
  · rw [decode_of_opField_beginNote ho, decodeBeginNote_eq_ok_iff] at h
    obtain ⟨hd, hp, rfl⟩ := h
    exact ⟨word_ext_fields (by simp [ho, Instr.opcode]) (by simp [hd]) (by simp),
      by simpa [Instr.wellFormed, pitchOk] using hp⟩
  · rw [decode_of_opField_endNote ho, decodeEndNote_eq_ok_iff] at h
    obtain ⟨hx, rfl⟩ := h
    exact ⟨word_ext_payload (by simp [ho, Instr.opcode]) (by simp [hx]), rfl⟩
  · rw [decode_of_opField_note ho, decodeNote_eq_ok_iff] at h
    obtain ⟨hd, hp, rfl⟩ := h
    exact ⟨word_ext_fields (by simp [ho, Instr.opcode]) (by simp) (by simp),
      by simpa [Instr.wellFormed, pitchOk, durOk] using ⟨hp, hd⟩⟩
  · rw [decode_of_opField_rest ho, decodeRest_eq_ok_iff] at h
    obtain ⟨hd, hp, rfl⟩ := h
    exact ⟨word_ext_fields (by simp [ho, Instr.opcode]) (by simp) (by simp [hp]),
      by simpa [Instr.wellFormed, durOk] using hd⟩
  · obtain rfl : _ = i := by simpa [decode_of_opField_reserved101 ho] using h
    exact ⟨word_ext_payload (by simp [ho, Instr.opcode]) (by simp), rfl⟩
  · obtain rfl : _ = i := by simpa [decode_of_opField_reserved110 ho] using h
    exact ⟨word_ext_payload (by simp [ho, Instr.opcode]) (by simp), rfl⟩
  · obtain rfl : _ = i := by simpa [decode_of_opField_reserved111 ho] using h
    exact ⟨word_ext_payload (by simp [ho, Instr.opcode]) (by simp), rfl⟩

theorem decode_encode {i : Instr} (h : i.wellFormed = true) : decode (encode i) = .ok i := by
  have ho : opField (encode i) = i.opcode := opField_encode i
  cases i with
  | wait => rfl
  | beginNote p =>
    have hp : p ≠ 0 := by simpa [Instr.wellFormed, pitchOk] using h
    rw [decode_of_opField_beginNote ho, decodeBeginNote_eq_ok_iff]
    simpa using hp
  | endNote => rfl
  | note p d =>
    obtain ⟨hp, hd⟩ : p ≠ 0 ∧ d ≠ 0 := by simpa [Instr.wellFormed, pitchOk, durOk] using h
    rw [decode_of_opField_note ho, decodeNote_eq_ok_iff]
    simpa using ⟨hd, hp⟩
  | rest d =>
    have hd : d ≠ 0 := by simpa [Instr.wellFormed, durOk] using h
    rw [decode_of_opField_rest ho, decodeRest_eq_ok_iff]
    simpa using hd
  | reserved101 x => simp [decode_of_opField_reserved101 ho]
  | reserved110 x => simp [decode_of_opField_reserved110 ho]
  | reserved111 x => simp [decode_of_opField_reserved111 ho]

theorem decode_eq_ok_iff {w : Word} {i : Instr} : decode w = .ok i ↔ w = encode i ∧ i.wellFormed = true := by
  constructor
  · exact eq_encode_of_decode
  · rintro ⟨rfl, hi⟩
    exact decode_encode hi

/-! ### Legal words (R73) -/

/-- An instruction's word is legal exactly when the instruction is. -/
theorem legalWord_encode (i : Instr) : legalWord (encode i) = i.legal := by
  cases i with
  | wait => exact Laws.LegalWord.wait
  | beginNote p => exact Laws.LegalWord.beginNote p
  | endNote => exact Laws.LegalWord.endNote
  | note p d => exact Laws.LegalWord.note p d
  | rest d => exact Laws.LegalWord.rest d
  | reserved101 x => exact Laws.LegalWord.reserved101 x
  | reserved110 x => exact Laws.LegalWord.reserved110 x
  | reserved111 x => exact Laws.LegalWord.reserved111 x

theorem legalWord_of_decode {w : Word} {i : Instr} (h : decode w = .ok i) : legalWord w = i.legal := by
  obtain ⟨rfl, -⟩ := eq_encode_of_decode h
  exact legalWord_encode i

/-- The decoder rejects no word that R73's table allows. -/
theorem decode_of_legalWord {w : Word} (h : legalWord w = true) : ∃ i, decode w = .ok i := by
  rw [legalWord_eq] at h
  simp only [Bool.or_eq_true, Bool.and_eq_true, beq_iff_eq, bne_iff_ne] at h
  obtain (((⟨ho, hx⟩ | ⟨⟨ho, hd⟩, hp⟩) | ⟨ho, hx⟩) | ⟨⟨ho, hd⟩, hp⟩) | ⟨⟨ho, hd⟩, hp⟩ := h
  · exact ⟨_, (decode_of_opField_wait ho).trans (decodeWait_eq_ok_iff.2 ⟨hx, rfl⟩)⟩
  · exact ⟨_, (decode_of_opField_beginNote ho).trans (decodeBeginNote_eq_ok_iff.2 ⟨hd, hp, rfl⟩)⟩
  · exact ⟨_, (decode_of_opField_endNote ho).trans (decodeEndNote_eq_ok_iff.2 ⟨hx, rfl⟩)⟩
  · exact ⟨_, (decode_of_opField_note ho).trans (decodeNote_eq_ok_iff.2 ⟨hd, hp, rfl⟩)⟩
  · exact ⟨_, (decode_of_opField_rest ho).trans (decodeRest_eq_ok_iff.2 ⟨hd, hp, rfl⟩)⟩

theorem legalWord_iff_decode_legal (w : Word) : legalWord w = true ↔ ∃ i, decode w = .ok i ∧ i.legal = true := by
  constructor
  · intro h
    obtain ⟨i, hi⟩ := decode_of_legalWord h
    exact ⟨i, hi, legalWord_of_decode hi ▸ h⟩
  · rintro ⟨i, hi, hl⟩
    rw [legalWord_of_decode hi, hl]

/-! ### The counts of R73's table -/

/-- A family of instructions has as many words as it has members with their operands in range. -/
theorem ncard_words {α : Type} {f : α → Instr} (hf : f.Injective) :
    {w : Word | ∃ a, decode w = .ok (f a)}.ncard = {a | (f a).wellFormed = true}.ncard := by
  have himage : {w : Word | ∃ a, decode w = .ok (f a)} = (fun a => encode (f a)) '' {a | (f a).wellFormed = true} := by
    ext w
    constructor
    · rintro ⟨a, ha⟩
      obtain ⟨rfl, hwf⟩ := eq_encode_of_decode ha
      exact ⟨a, hwf, rfl⟩
    · rintro ⟨a, hwf, rfl⟩
      exact ⟨a, decode_encode hwf⟩
  have hinj : Set.InjOn (fun a => encode (f a)) {a | (f a).wellFormed = true} := by
    intro a ha b hb hab
    have hok : Except.ok (f a) = decode (encode (f b)) := (decode_encode ha).symm.trans (congrArg decode hab)
    rw [decode_encode hb] at hok
    exact hf (Except.ok.inj hok)
  rw [himage, hinj.ncard_image]

/-- An instruction that is well formed has exactly one word. -/
theorem ncard_word {i : Instr} (h : i.wellFormed = true) : {w : Word | decode w = .ok i}.ncard = 1 := by
  simp [decode_eq_ok_iff, h]

theorem ncard_bitVec_ne_zero (n : Nat) : {x : BitVec n | x ≠ 0}.ncard = 2 ^ n - 1 := by
  have hcompl : {x : BitVec n | x ≠ 0} = {0}ᶜ := rfl
  rw [hcompl, Set.ncard_compl, Set.ncard_singleton, Nat.card_eq_fintype_card, ← FinEnum.card_eq_fintypeCard,
    FinEnum.card_bitVec]

theorem ncard_beginNote_words : {w : Word | ∃ p, decode w = .ok (.beginNote p)}.ncard = 65535 := by
  rw [ncard_words fun _ _ => Instr.beginNote.inj]
  simpa [Instr.wellFormed, pitchOk] using ncard_bitVec_ne_zero 16

theorem ncard_rest_words : {w : Word | ∃ d, decode w = .ok (.rest d)}.ncard = 8191 := by
  rw [ncard_words fun _ _ => Instr.rest.inj]
  simpa [Instr.wellFormed, durOk] using ncard_bitVec_ne_zero 13

theorem ncard_note_words : {w : Word | ∃ p d, decode w = .ok (.note p d)}.ncard = 8191 * 65535 := by
  have hinj : Function.Injective fun a : Pitch × Dur => Instr.note a.1 a.2 := by
    rintro ⟨p, d⟩ ⟨q, e⟩ h
    simpa using h
  have hprod : {a : Pitch × Dur | (Instr.note a.1 a.2).wellFormed = true} = {p | p ≠ 0} ×ˢ {d | d ≠ 0} := by
    ext ⟨p, d⟩
    simp [Instr.wellFormed, pitchOk, durOk]
  have hwords := ncard_words hinj
  rw [hprod, Set.ncard_prod, ncard_bitVec_ne_zero, ncard_bitVec_ne_zero] at hwords
  simpa using hwords

end Sys2Proof

/-! ### An illegal word raises ILLEGAL_COMMAND (R118) -/

namespace Sys2Proof.Machine

/-- A term that is no legal command runs as its own word's fault (log 12). -/
theorem exec_of_not_legal {i : Instr} (h : i.legal = false) (s : State) :
    exec i s = illegalCommand (encode i) s := by
  cases i with
  | wait => cases h
  | beginNote p =>
    have hp : pitchOk p = false := h
    simp [exec, execBeginNote, hp]
  | endNote => cases h
  | note p d =>
    have hpd : (pitchOk p && durOk d) = false := h
    simp only [exec, execNote, hpd, Bool.false_eq_true, if_false]
  | rest d =>
    have hd : durOk d = false := h
    simp [exec, execRest, hd]
  | reserved101 x => rfl
  | reserved110 x => rfl
  | reserved111 x => rfl

/-- Whether the decoder rejects it or reads a reserved row from it, an illegal word takes its fault. -/
theorem runWord_of_illegal {w : Word} (h : legalWord w = false) (s : State) :
    runWord w s = illegalCommand w s := by
  unfold runWord
  cases hw : decode w with
  | error e => rfl
  | ok i =>
    rw [legalWord_of_decode hw] at h
    obtain ⟨rfl, -⟩ := eq_encode_of_decode hw
    exact exec_of_not_legal h s

/-- A due ADVANCE that pulls an illegal word only consumes it and enters the fault. -/
theorem advance_of_illegal_word {s : State} {w : Word} (hrun : s.halted = false) (h : s.ticksRemaining.toNat ≤ 1)
    (hw : s.cfg.song[s.srcPos]? = some w) (hl : legalWord w = false) :
    advance s = .next (((s.setTicksRemaining 0).consumeWord w).haltWith .illegalCommand w) := by
  rw [advance_of_word h hw, runWord_of_illegal hl, illegalCommand, raiseFault_of_running (by simpa using hrun)]

/-- Settles O5: decode and encode are inverse to each other, so R73's table and its counts carry over from words to
instructions; a pulled word outside the table is run as its fault. -/
theorem legalWordsAndTheirCounts : Obligations.LegalWordsAndTheirCounts := by
  refine ⟨legalWord_iff_decode_legal, ncard_word rfl, ncard_beginNote_words, ncard_word rfl, ncard_note_words,
    ncard_rest_words, fun s w hrun h0 hw hl => ?_⟩
  exact ⟨_, advance_of_illegal_word hrun (by simp [h0]) hw hl, rfl, rfl, rfl⟩

end Sys2Proof.Machine

/-! ### DEBOUNCE_STEP on the block, one rule per outcome (R91, R92) -/

namespace Sys2Proof.Machine

/-- The comparison of R91 on 8 bits is the comparison of the numbers, since the increment cannot wrap (R98). -/
theorem count_succ_eq_iff {c thr : BitVec 8} (h : c < thr) : c + 1 = thr ↔ c.toNat + 1 = thr.toNat := by
  rw [← BitVec.toNat_inj, count_succ_toNat h]

theorem confirmedLevel_of_asserted {s : State} (h : s.dbState = .asserted) :
    confirmedLevel s.cfg s.dbState = s.cfg.assertedLevel := by
  rw [h, confirmedLevel]

theorem confirmedLevel_of_deasserted {s : State} (h : s.dbState = .deasserted) :
    confirmedLevel s.cfg s.dbState = !s.cfg.assertedLevel := by
  rw [h, confirmedLevel]

theorem debounceStep_of_match {raw : Bool} {s : State} (h : raw = confirmedLevel s.cfg s.dbState) :
    debounceStep raw s = s.setDebounce s.dbState 0 .nothing := by
  rw [debounceStep, filterStep_match h]

/-- A contrary sample that does not complete the run is counted. -/
theorem debounceStep_of_count {raw : Bool} {s : State} (hlt : s.dbCount < s.cfg.threshold)
    (h : raw ≠ confirmedLevel s.cfg s.dbState) (hc : s.dbCount.toNat + 1 ≠ s.cfg.threshold.toNat) :
    ∃ c : BitVec 8, c.toNat = s.dbCount.toNat + 1 ∧ debounceStep raw s = s.setDebounce s.dbState c .nothing := by
  refine ⟨s.dbCount + 1, count_succ_toNat hlt, ?_⟩
  obtain ⟨hm, -⟩ | ⟨-, hf, -⟩ | ⟨-, -, e⟩ := filterStep_cases s.cfg raw s.dbState s.dbCount
  · exact absurd hm h
  · exact absurd ((count_succ_eq_iff hlt).1 hf) hc
  · rw [debounceStep, e]

/-- The contrary sample that completes the run flips the confirmed state. -/
theorem debounceStep_of_flip {raw : Bool} {s : State} (hlt : s.dbCount < s.cfg.threshold)
    (h : raw ≠ confirmedLevel s.cfg s.dbState) (hf : s.dbCount.toNat + 1 = s.cfg.threshold.toNat) :
    debounceStep raw s = s.setDebounce (flipped s.dbState) 0 (leaveEvent s.dbState) := by
  obtain ⟨hm, -⟩ | ⟨-, -, e⟩ | ⟨-, hc, -⟩ := filterStep_cases s.cfg raw s.dbState s.dbCount
  · exact absurd hm h
  · rw [debounceStep, e]
  · exact absurd ((count_succ_eq_iff hlt).2 hf) hc

/-- Settles O14: in either confirmed state the three rules above are the clauses, once `confirmedLevel` is read as that
state's level. -/
theorem debounceStepFollowsItsRule : Obligations.DebounceStepFollowsItsRule := by
  intro raw s hlt
  refine ⟨fun hd => ?_, fun hd => ?_⟩
  · rw [← confirmedLevel_of_asserted hd]
    refine ⟨debounceStep_of_match, debounceStep_of_count hlt, fun hr hf => ?_⟩
    rw [debounceStep_of_flip hlt hr hf, hd]
    rfl
  · have hmatch : raw ≠ s.cfg.assertedLevel ↔ raw = confirmedLevel s.cfg s.dbState := by
      rw [confirmedLevel_of_deasserted hd, Bool.eq_not]
    have hcontrary : raw = s.cfg.assertedLevel ↔ raw ≠ confirmedLevel s.cfg s.dbState := by
      rw [confirmedLevel_of_deasserted hd, Bool.ne_not]
    rw [hmatch, hcontrary]
    refine ⟨debounceStep_of_match, debounceStep_of_count hlt, fun hr hf => ?_⟩
    rw [debounceStep_of_flip hlt hr hf, hd]
    rfl

end Sys2Proof.Machine

/-! ### The fine commands: each one's words, and its exact next state (R113 to R115) -/

namespace Sys2Proof.Machine

theorem exec_wait (s : State) : exec .wait s = .next s := rfl

theorem exec_beginNote {p : Pitch} (hp : p ≠ 0) (s : State) : exec (.beginNote p) s = .next (s.play p) := by
  have hok : pitchOk p = true := by simpa [pitchOk] using hp
  simp [exec, execBeginNote, hok]

theorem exec_endNote (s : State) : exec .endNote s = .next s.silence := rfl

/-- Settles O6: WAIT is always well formed, so its word is the only one that decodes to it. -/
theorem waitDoesNothing : Obligations.WaitDoesNothing :=
  ⟨fun _ => decode_eq_ok_iff.trans (and_iff_left rfl), exec_wait⟩

/-- Settles O7: the words of BEGIN_NOTE are those its well-formed terms encode to, and a term with its pitch in range
runs as the access `play`. -/
theorem beginNotePlays : Obligations.BeginNotePlays := by
  refine ⟨fun w p => ?_, fun p s hp => exec_beginNote hp s⟩
  have hwf : (Instr.beginNote p).wellFormed = true ↔ p ≠ 0 := by simp [Instr.wellFormed, pitchOk]
  rw [decode_eq_ok_iff, hwf, and_comm]
  rfl

/-- Settles O8: END_NOTE is always well formed, so it has one word, and it runs as the access `silence`. -/
theorem endNoteSilences : Obligations.EndNoteSilences :=
  ⟨fun _ => decode_eq_ok_iff.trans (and_iff_left rfl), exec_endNote⟩

end Sys2Proof.Machine

/-! ### ADVANCE by its pseudocode, and the TICK that pulls an illegal word (R111, R112, R118) -/

namespace Sys2Proof.Machine

theorem runWord_of_decode {w : Word} {i : Instr} (h : decode w = .ok i) (s : State) : runWord w s = exec i s := by
  simp [runWord, h]

/-- A duration above 0 counts down without wrapping (R125). -/
theorem ticks_pred_toNat {d : Dur} (h : 0 < d.toNat) : (d - 1).toNat = d.toNat - 1 := by
  bv_omega

/-- Settles O19: ADVANCE counts down, or pulls a word that SONG always has and runs it by its decoding or as its
fault. -/
theorem advanceFollowsItsRule : Obligations.AdvanceFollowsItsRule := by
  intro s hrun hsrc
  refine ⟨fun hcount => ?_, fun hdue => ?_⟩
  · exact ⟨s.ticksRemaining - 1, ticks_pred_toNat (by omega), advance_of_counting hcount⟩
  · obtain ⟨w, hw⟩ := song_at hsrc
    refine ⟨w, hw, fun i hi _ => ?_, advance_of_illegal_word hrun hdue hw⟩
    exact (advance_of_word hdue hw).trans (runWord_of_decode hi _)

/-- Settles O13: with the indicator on the TICK is the ADVANCE of what steps 1 to 3 left, and those steps neither halt
the block nor touch SONG. -/
theorem illegalWordFaultsAfterItsPull : Obligations.IllegalWordFaultsAfterItsPull := by
  intro raw s w hrun hon hdue hw hl
  obtain ⟨hcfg, -, -, -, -, -, -, hhalted, -⟩ := tickFront_frame raw s
  rw [tick_of_on hon, advance_of_illegal_word (hhalted.trans hrun) hdue hw hl, ← hcfg]
  rfl

end Sys2Proof.Machine

/-! ### When the TICK step is taken (R140) -/

namespace Sys2Proof.Machine

theorem tickEnabled_iff {s : State} :
    s.tickEnabled = true ↔ s.ticksEnabled = true ∧ s.tickPending = true ∧ s.halted = false := by
  simp [State.tickEnabled, and_assoc]

/-- The dispatcher's turn is the TICK when TICK is enabled (R140). -/
theorem step_of_tick {s : State} {raw : Bool} {rest : List Event} (h : s.typed = true)
    (hi : s.inbox = .tick raw :: rest) (hen : s.tickEnabled = true) : step s = tick raw s.beginStep := by
  have hen : s.beginStep.tickEnabled = true := hen
  simp [step_of_turn h hi, takeEvent, takeTick, hen]

/-- The start of a step that takes a waiting turn. -/
theorem beginStep_of_turn {s : State} {e : Event} {rest : List Event} (h : s.inbox = e :: rest) :
    s.beginStep = { s with trace := [], eventOut := none, inbox := rest, freeIndex := s.freeIndex + 1 } := by
  rw [State.beginStep, h, List.tail_cons]

/-- With `src_pos` in range a TICK answers a next state: a restart leaves the indicator off, so ADVANCE only ever sees
the position the tick began with. -/
theorem tick_next {s : State} (raw : Bool) (h : s.srcPos < s.cfg.song.length) : ∃ t, tick raw s = .next t := by
  cases hl : (tickFront raw s).led with
  | false => exact ⟨_, tick_of_off hl⟩
  | true =>
    obtain ⟨hc, -⟩ := tickFront_frame raw s
    rw [tick_of_on hl]
    apply advance_next
    obtain ⟨hp, -⟩ | ⟨hoff, -⟩ := tickFront_source raw s
    · rwa [hp, hc]
    · simp [hl] at hoff

/-- Settles O29: the outputs of a step tell a TICK from every other turn, and a TICK, once enabled, always answers a
next state. -/
theorem tickIsTakenExactlyWhenEnabled : Obligations.TickIsTakenExactlyWhenEnabled := by
  refine ⟨fun s raw rest htyped hsrc hi hticks hpending hrun => ?_, fun s t hstep hout => ?_⟩
  · obtain ⟨t, ht⟩ := tick_next (s := s.beginStep) raw hsrc
    obtain ⟨-, hev, hacked, -, -, -, htrace⟩ := tick_frame ht
    refine ⟨t, ?_, by simp [hev], hacked, htrace⟩
    rw [step_of_tick htyped hi (tickEnabled_iff.2 ⟨hticks, hpending, hrun⟩), ht]
  · obtain ⟨-, -, -, ⟨raw, htaken, ht⟩ | ⟨-, hnone, -⟩⟩ := step_outputs hstep
    · obtain ⟨-, hen⟩ := eventTaken_eq_tick.1 htaken
      obtain ⟨hticks, hpending, hrun⟩ := tickEnabled_iff.1 hen
      obtain ⟨-, -, hacked, -, -, -, htrace⟩ := tick_frame ht
      exact ⟨hticks, hpending, hrun, hacked, htrace⟩
    · exact absurd hnone hout

end Sys2Proof.Machine

/-! ### The whole TICK by branch of the toggle (R142 to R144) -/

namespace Sys2Proof.Machine

theorem disarm_of_resume {s : State} (h : s.cfg.rearmPolicy = .resume) : disarm s = s.silence := by
  simp [disarm, h]

theorem disarm_of_restart {s : State} (h : s.cfg.rearmPolicy = .restart) :
    disarm s = (s.silence.setTicksRemaining 0).restartSource := by
  simp [disarm, h]

theorem tickFront_of_no_press {raw : Bool} {s : State} (h : debounceEvent raw s ≠ .pressed) :
    tickFront raw s = sampled raw s := by
  obtain ⟨-, e⟩ | ⟨hp, -⟩ | ⟨hp, -⟩ := tickFront_cases raw s
  · exact e
  · exact absurd hp h
  · exact absurd hp h

/-- With no press the indicator stays as it was, and the TICK goes on exactly when it is on (R144). -/
theorem tick_of_no_press_off {raw : Bool} {s : State} (h : debounceEvent raw s ≠ .pressed) (hoff : s.led = false) :
    tick raw s = .next (sampled raw s) := by
  rw [← tickFront_of_no_press h]
  exact tick_of_off (by simp [tickFront_led, h, hoff])

theorem tick_of_no_press_on {raw : Bool} {s : State} (h : debounceEvent raw s ≠ .pressed) (hon : s.led = true) :
    tick raw s = advance (sampled raw s) := by
  rw [← tickFront_of_no_press h]
  exact tick_of_on (by simp [tickFront_led, h, hon])

/-- A press while the indicator is off turns it on, and the same TICK advances (R143, R150). -/
theorem tick_of_press_off {raw : Bool} {s : State} (h : debounceEvent raw s = .pressed) (hoff : s.led = false) :
    tick raw s = advance ((sampled raw s).setLed true).unmute := by
  rw [tick_of_on (by simp [tickFront_led, h, hoff])]
  obtain ⟨hn, -⟩ | ⟨-, -, e⟩ | ⟨-, hon, -⟩ := tickFront_cases raw s
  · exact absurd h hn
  · rw [e]
  · simp [hoff] at hon

/-- A press while the indicator is on turns it off, and the TICK ends there (R143, R144). -/
theorem tick_of_press_on {raw : Bool} {s : State} (h : debounceEvent raw s = .pressed) (hon : s.led = true) :
    tick raw s = .next (disarm ((sampled raw s).setLed false)).mute := by
  rw [tick_of_off (by simp [tickFront_led, h, hon])]
  obtain ⟨hn, -⟩ | ⟨-, hoff, -⟩ | ⟨-, -, e⟩ := tickFront_cases raw s
  · exact absurd h hn
  · simp [hon] at hoff
  · rw [e]

/-- A press that turns the indicator off under RESUME only silences and mutes the tone (R121, R143). -/
theorem tick_of_press_on_resume {raw : Bool} {s : State} (h : debounceEvent raw s = .pressed) (hon : s.led = true)
    (hpol : s.cfg.rearmPolicy = .resume) : tick raw s = .next ((sampled raw s).setLed false).silence.mute := by
  have hpol : ((sampled raw s).setLed false).cfg.rearmPolicy = .resume := hpol
  rw [tick_of_press_on h hon, disarm_of_resume hpol]

/-- Under RESTART it also returns the command source to the start of its cycle (R121). -/
theorem tick_of_press_on_restart {raw : Bool} {s : State} (h : debounceEvent raw s = .pressed) (hon : s.led = true)
    (hpol : s.cfg.rearmPolicy = .restart) :
    tick raw s = .next ((((sampled raw s).setLed false).silence.setTicksRemaining 0).restartSource).mute := by
  have hpol : ((sampled raw s).setLed false).cfg.rearmPolicy = .restart := hpol
  rw [tick_of_press_on h hon, disarm_of_restart hpol]

/-- Settles O31: the step is the TICK, and its clauses are the rules above, with `u` the sampled state. -/
theorem toggleAndAdvanceFollowTheirRules : Obligations.ToggleAndAdvanceFollowTheirRules := by
  intro s raw rest htyped hi hen
  have hstep := step_of_tick htyped hi hen
  rw [beginStep_of_turn hi] at hstep
  refine ⟨fun hn hoff => ?_, fun hn hon => ?_, fun hp hoff => ?_, fun hp hon hpol => ?_, fun hp hon hpol => ?_⟩
  · exact hstep.trans (tick_of_no_press_off hn hoff)
  · exact hstep.trans (tick_of_no_press_on hn hon)
  · exact hstep.trans (tick_of_press_off hp hoff)
  · exact hstep.trans (tick_of_press_on_resume hp hon hpol)
  · exact hstep.trans (tick_of_press_on_restart hp hon hpol)

end Sys2Proof.Machine

/-! ### TICK_FIRE and ENABLE_TICKS (R146, R147) -/

namespace Sys2Proof.Machine

theorem enableTicks_of_halted {s : State} (h : s.halted = true) : enableTicks s = s := if_pos h

theorem enableTicks_of_running {s : State} (h : s.halted = false) : enableTicks s = s.setEnabled := by
  simp [enableTicks, h]

/-- Settles O34: the turn is `setPending` on the begun step, with no condition on the state. -/
theorem tickFireOnlySetsPending : Obligations.TickFireOnlySetsPending := by
  intro s rest htyped hi
  rw [step_of_turn htyped hi, takeEvent, beginStep_of_turn hi]
  rfl

/-- Settles O35: the turn is `enableTicks` on the begun step, which keeps `halted`. -/
theorem enableTicksUnlessHalted : Obligations.EnableTicksUnlessHalted := by
  intro s rest htyped hi
  have hstep : step s = .next (enableTicks s.beginStep) := step_of_turn htyped hi
  refine ⟨fun hrun => ?_, fun hhalted => ?_⟩
  · rw [hstep, enableTicks_of_running (s := s.beginStep) hrun, beginStep_of_turn hi]
    rfl
  · rw [hstep, enableTicks_of_halted (s := s.beginStep) hhalted, beginStep_of_turn hi]

end Sys2Proof.Machine

/-! ### Fault entry and FATAL (R161, R162, R164, R166) -/

namespace Sys2Proof.Machine

/-- Settles O36: fault entry writes the three fault fields unless the block is halted, and a FATAL turn is fault entry
on the begun step, which keeps `halted`. -/
theorem faultEntryKeepsTheFirstFault : Obligations.FaultEntryKeepsTheFirstFault := by
  refine ⟨fun k w s => ⟨fun hrun => raiseFault_of_running hrun k w, fun hhalted => raiseFault_of_halted hhalted k w⟩,
    fun s kind rest htyped hi => ?_⟩
  have hstep : step s = .next (raiseFault (fatalCode kind) 0 s.beginStep) := step_of_turn htyped hi
  refine ⟨fun hrun => ?_, fun hhalted => ?_⟩
  · rw [hstep, raiseFault_of_running (s := s.beginStep) hrun, beginStep_of_turn hi]
    rfl
  · rw [hstep, raiseFault_of_halted (s := s.beginStep) hhalted, beginStep_of_turn hi]

end Sys2Proof.Machine

/-! ### What can halt the block (R163) -/

namespace Sys2Proof.Machine

/-- A legal command raises no fault. -/
theorem exec_halted_of_legal {i : Instr} {s t : State} (hl : i.legal = true) (h : exec i s = .next t) :
    t.halted = s.halted := by
  cases i with
  | wait => cases h; rfl
  | beginNote p =>
    have hp : pitchOk p = true := hl
    simp only [exec, execBeginNote, hp, if_true] at h
    cases h; rfl
  | endNote => cases h; rfl
  | note p d =>
    have hpd : (pitchOk p && durOk d) = true := hl
    simp only [exec, execNote, hpd, if_true] at h
    cases h; rfl
  | rest d =>
    have hd : durOk d = true := hl
    simp only [exec, execRest, hd, if_true] at h
    cases h; rfl
  | reserved101 x => cases hl
  | reserved110 x => cases hl
  | reserved111 x => cases hl

theorem runWord_halted_of_legal {w : Word} {s t : State} (hl : legalWord w = true) (h : runWord w s = .next t) :
    t.halted = s.halted := by
  obtain ⟨i, hi, hlegal⟩ := (legalWord_iff_decode_legal w).1 hl
  rw [runWord_of_decode hi] at h
  exact exec_halted_of_legal hlegal h

/-- An ADVANCE that halts the block pulled an illegal word, and did nothing but consume it and enter its fault. -/
theorem advance_halts {s t : State} (h : advance s = .next t) (hrun : s.halted = false) (hhalt : t.halted = true) :
    ∃ w, legalWord w = false ∧ t = ((s.setTicksRemaining 0).consumeWord w).haltWith .illegalCommand w := by
  obtain ⟨-, rfl⟩ | ⟨hdue, w, hw, hr⟩ := advance_cases h
  · simp [hrun] at hhalt
  · cases hl : legalWord w with
    | true =>
      have hkept := runWord_halted_of_legal hl hr
      simp [hrun, hhalt] at hkept
    | false =>
      rw [advance_of_illegal_word hrun hdue hw hl] at h
      cases h
      exact ⟨w, hl, rfl⟩

/-- Steps 1 to 3 of a TICK raise no fault, so the one that halts the block is on and halts in its ADVANCE. -/
theorem tick_halts {raw : Bool} {s t : State} (h : tick raw s = .next t) (hrun : s.halted = false)
    (hhalt : t.halted = true) :
    (tickFront raw s).led = true ∧ ∃ w, legalWord w = false
      ∧ t = (((tickFront raw s).setTicksRemaining 0).consumeWord w).haltWith .illegalCommand w := by
  obtain ⟨-, -, -, -, -, -, -, hfront, -⟩ := tickFront_frame raw s
  have hfront : (tickFront raw s).halted = false := hfront.trans hrun
  obtain ⟨-, rfl⟩ | ⟨hon, ha⟩ := tick_cases h
  · simp [hfront] at hhalt
  · exact ⟨hon, advance_halts ha hfront hhalt⟩

theorem enableTicks_halted (s : State) : (enableTicks s).halted = s.halted := by
  obtain ⟨-, e⟩ | ⟨-, e⟩ := enableTicks_cases s <;> simp [e]

/-- Settles O46: of all that a step can do, only FATAL and a TICK can leave a running block halted. -/
theorem onlyFatalOrAnIllegalWordHalts : Obligations.OnlyFatalOrAnIllegalWordHalts := by
  intro s t h hrun hhalt
  have hbegun : s.beginStep.halted = false := hrun
  obtain ⟨-, ⟨-, -, rfl⟩ | ⟨e, hn, ht⟩⟩ := step_cases h
  · simp [hrun] at hhalt
  · obtain ⟨-, rfl⟩ | ⟨-, rfl⟩ | ⟨-, rfl⟩ | ⟨k, rfl, rfl⟩ | ⟨raw, -, -, rfl⟩ | ⟨raw, rfl, -, hk⟩ := takeEvent_cases ht
    · simp at hhalt
    · simp [enableTicks_halted, hrun] at hhalt
    · simp [hrun] at hhalt
    · rw [fatal, raiseFault_of_running hbegun]
      exact .inl ⟨k, hn, rfl, rfl⟩
    · simp [hrun] at hhalt
    · obtain ⟨hon, w, hl, rfl⟩ := tick_halts hk hbegun hhalt
      exact .inr ⟨raw, w, hn, hon, by simp, hl, rfl, rfl, rfl⟩

end Sys2Proof.Machine

/-! ### RESET (R180) -/

namespace Sys2Proof.Machine

theorem step_of_reset {s t : State} (h : step s = .next t) (hr : nextEvent s = some .reset) :
    t = s.beginStep.installReset := by
  obtain ⟨-, ⟨hn, -⟩ | ⟨e, hn, ht⟩⟩ := step_cases h
  · simp [hr] at hn
  · obtain rfl : e = .reset := by simpa [hr] using hn.symm
    cases ht
    rfl

/-- Settles O37: the turn is `installReset` on the begun step, whether or not the block is halted. -/
theorem resetInstallsTheResetValues : Obligations.ResetInstallsTheResetValues := by
  intro s rest htyped hi
  have hstep : step s = .next s.beginStep.installReset := step_of_turn htyped hi
  exact ⟨s.beginStep.installReset, hstep, by simp⟩

end Sys2Proof.Machine

/-! ### No TICK before ENABLE_TICKS (R186) -/

namespace Sys2Proof.Machine

/-- Any event but TICK is due only as the oldest waiting turn. -/
theorem inbox_of_nextEvent {s : State} {e : Event} (h : nextEvent s = some e) (he : ∀ raw, e ≠ .tick raw) :
    s.inbox = e :: s.inbox.tail := by
  unfold nextEvent at h
  split at h
  case h_1 hi =>
    cases h
    simp [hi]
  case h_2 =>
    split at h
    · cases h
      exact absurd rfl (he _)
    · cases h

/-- While `ticks_enabled` is 0 no TICK is enabled, so a step has no outputs. -/
theorem step_outputs_of_not_enabled {s t : State} (h : step s = .next t) (hoff : s.ticksEnabled = false) :
    t.trace = [] ∧ t.eventOut = none := by
  obtain ⟨-, -, -, ⟨raw, htick, -⟩ | ⟨-, hev, htr⟩⟩ := step_outputs h
  · obtain ⟨-, hen⟩ := eventTaken_eq_tick.1 htick
    obtain ⟨hon, -⟩ := tickEnabled_iff.1 hen
    simp [hoff] at hon
  · exact ⟨htr, hev⟩

/-- A step that is neither RESET nor ENABLE_TICKS keeps `ticks_enabled` (R32). -/
theorem step_ticksEnabled {s t : State} (h : step s = .next t) (hr : nextEvent s ≠ some .reset)
    (hen : nextEvent s ≠ some .enableTicks) : t.ticksEnabled = s.ticksEnabled := by
  obtain ⟨-, ⟨-, -, rfl⟩ | ⟨e, hn, ht⟩⟩ := step_cases h
  · rfl
  · obtain ⟨rfl, -⟩ | ⟨rfl, -⟩ | ⟨-, rfl⟩ | ⟨k, -, rfl⟩ | ⟨raw, -, -, rfl⟩ | ⟨raw, -, -, hk⟩ := takeEvent_cases ht
    · exact absurd hn hr
    · exact absurd hn hen
    · rfl
    · obtain ⟨-, e⟩ | ⟨-, e⟩ := fatal_cases k s.beginStep <;> rw [e] <;> rfl
    · rfl
    · obtain ⟨-, -, -, hkept, -⟩ := tick_frame hk
      exact hkept

/-- RESET clears `ticks_enabled`, so only ENABLE_TICKS can set it (R32). -/
theorem step_keeps_not_enabled {s t : State} (h : step s = .next t) (hoff : s.ticksEnabled = false)
    (hen : nextEvent s ≠ some .enableTicks) : t.ticksEnabled = false := by
  by_cases hr : nextEvent s = some .reset
  · simp [step_of_reset h hr]
  · rw [step_ticksEnabled h hr hen, hoff]

/-- The induction over a run whose first `n` turns do not enable: what every step but ENABLE_TICKS keeps holds at its
end. -/
theorem core_run_before_enable {P : State → Prop}
    (hkeep : ∀ s t, P s → step s = .next t → nextEvent s ≠ some .enableTicks → P t) {n : Nat} {s u : State}
    (hs : P s) (hturns : .enableTicks ∉ s.inbox.take n) (hrun : Sys2Proof.core.run n s = .next u) : P u := by
  induction n generalizing s with
  | zero => cases hrun; exact hs
  | succ n ih =>
    obtain ⟨t, hstep, hrest⟩ := core_run_succ.1 hrun
    obtain ⟨-, hinbox, -⟩ := step_outputs hstep
    have hhead : nextEvent s ≠ some .enableTicks := fun hn => by
      rw [inbox_of_nextEvent hn (by simp)] at hturns
      simp at hturns
    have hlater : t.inbox.take n = (s.inbox.take (n + 1)).tail := by
      rw [hinbox]
      exact (List.tail_take_eq_take_tail s.inbox (n + 1)).symm
    refine ih (hkeep s t hs hstep hhead) (fun hmem => hturns ?_) hrest
    rw [hlater] at hmem
    exact List.mem_of_mem_tail hmem

/-- The block before ENABLE_TICKS: not enabled, and no output of a step. -/
def State.notStarted (s : State) : Prop := s.ticksEnabled = false ∧ s.trace = [] ∧ s.eventOut = none

theorem notStarted_boot (cfg : Config) (turns : List Event) : (State.boot cfg turns).notStarted := ⟨rfl, rfl, rfl⟩

theorem step_keeps_notStarted {s t : State} (hs : s.notStarted) (h : step s = .next t)
    (hen : nextEvent s ≠ some .enableTicks) : t.notStarted :=
  have ⟨hoff, _⟩ := hs
  ⟨step_keeps_not_enabled h hoff hen, step_outputs_of_not_enabled h hoff⟩

/-- Settles O41: a step with `ticks_enabled` at 0 has no outputs and cannot set it unless it is ENABLE_TICKS; along a
run from boot this is the invariant `notStarted`. -/
theorem noTickBeforeEnable : Obligations.NoTickBeforeEnable := by
  refine ⟨fun s t hoff hstep => ?_, fun cfg turns n t hturns hrun => ?_⟩
  · obtain ⟨htrace, hevent⟩ := step_outputs_of_not_enabled hstep hoff
    exact ⟨htrace, hevent, step_keeps_not_enabled hstep hoff⟩
  · exact core_run_before_enable (fun _ _ => step_keeps_notStarted) (notStarted_boot cfg turns) hturns hrun

end Sys2Proof.Machine

/-! ### The filter over a sequence of samples (R95 to R99) -/

namespace Sys2Proof.Machine

theorem filterEnd_append (cfg : Config) (d : DbState) (c : BitVec 8) (xs ys : List Bool) :
    filterEnd cfg d c (xs ++ ys) = filterEnd cfg (filterEnd cfg d c xs).1 (filterEnd cfg d c xs).2 ys := by
  induction xs generalizing d c with
  | nil => rfl
  | cons x xs ih => exact ih _ _

theorem filterEvents_append (cfg : Config) (d : DbState) (c : BitVec 8) (xs ys : List Bool) :
    filterEvents cfg d c (xs ++ ys)
      = filterEvents cfg d c xs ++ filterEvents cfg (filterEnd cfg d c xs).1 (filterEnd cfg d c xs).2 ys := by
  induction xs generalizing d c with
  | nil => rfl
  | cons x xs ih => exact congrArg _ (ih _ _)

theorem filterEnd_count_lt {cfg : Config} {c : BitVec 8} (h : c < cfg.threshold) (d : DbState) (raws : List Bool) :
    (filterEnd cfg d c raws).2 < cfg.threshold := by
  induction raws generalizing d c with
  | nil => exact h
  | cons x xs ih => exact ih (filterStep_count_lt h x d) _

/-- How many of the latest samples, without a break, are not the level of the confirmed state `d`. -/
def contraryRun (cfg : Config) (d : DbState) (raws : List Bool) : Nat :=
  (raws.reverse.takeWhile (· != confirmedLevel cfg d)).length

theorem contraryRun_concat_match {cfg : Config} {d : DbState} {raw : Bool} (h : raw = confirmedLevel cfg d)
    (raws : List Bool) : contraryRun cfg d (raws ++ [raw]) = 0 := by
  simp [contraryRun, h]

theorem contraryRun_concat_contrary {cfg : Config} {d : DbState} {raw : Bool} (h : raw ≠ confirmedLevel cfg d)
    (raws : List Bool) : contraryRun cfg d (raws ++ [raw]) = contraryRun cfg d raws + 1 := by
  simp [contraryRun, h]

theorem confirmedLevel_flipped (cfg : Config) (d : DbState) :
    confirmedLevel cfg (flipped d) = !confirmedLevel cfg d := by
  cases d <;> simp [confirmedLevel, flipped]

/-- The counter is the length of the run of contrary samples that is still open: a match and a flip both close it. -/
theorem filterEnd_count_eq_contraryRun {cfg : Config} (hthr : 0 < cfg.threshold) (d : DbState) (raws : List Bool) :
    (filterEnd cfg d 0 raws).2.toNat = contraryRun cfg (filterEnd cfg d 0 raws).1 raws := by
  induction raws using List.reverseRecOn with
  | nil => rfl
  | append_singleton xs x ih =>
    have hlt := filterEnd_count_lt hthr d xs
    rw [filterEnd_append]
    generalize filterEnd cfg d 0 xs = b at ih hlt
    obtain ⟨hm, e⟩ | ⟨hm, -, e⟩ | ⟨hm, -, e⟩ := filterStep_cases cfg x b.1 b.2
    · simp [filterEnd, e, contraryRun_concat_match hm]
    · have hx : x = confirmedLevel cfg (flipped b.1) := by rw [confirmedLevel_flipped]; exact Bool.eq_not.2 hm
      simp [filterEnd, e, contraryRun_concat_match hx]
    · simp only [filterEnd, e]
      rw [count_succ_toNat hlt, ih, contraryRun_concat_contrary hm]

theorem leaveEvent_ne_nothing (d : DbState) : leaveEvent d ≠ .nothing := by
  cases d <;> simp [leaveEvent]

theorem leaveEvent_inj {d d' : DbState} : leaveEvent d = leaveEvent d' ↔ d = d' := by
  cases d <;> cases d' <;> simp [leaveEvent]

theorem flipped_ne (d : DbState) : flipped d ≠ d := by
  cases d <;> simp [flipped]

theorem flipped_flipped (d : DbState) : flipped (flipped d) = d := by
  cases d <;> rfl

/-- An event is fired exactly by the contrary sample that brings the count to THRESHOLD, and it leaves the confirmed
state (R91, R93). -/
theorem filterStep_event_eq_leave_iff {cfg : Config} {raw : Bool} {d d' : DbState} {c : BitVec 8} :
    (filterStep cfg raw d c).2.2 = leaveEvent d'
      ↔ d = d' ∧ raw ≠ confirmedLevel cfg d ∧ c + 1 = cfg.threshold := by
  obtain ⟨hm, e⟩ | ⟨hm, hf, e⟩ | ⟨hm, hf, e⟩ := filterStep_cases cfg raw d c
  · rw [e]
    exact ⟨fun h => absurd h.symm (leaveEvent_ne_nothing d'), fun ⟨_, hc, _⟩ => absurd hm hc⟩
  · rw [e, leaveEvent_inj]
    exact ⟨fun h => ⟨h, hm, hf⟩, And.left⟩
  · rw [e]
    exact ⟨fun h => absurd h.symm (leaveEvent_ne_nothing d'), fun ⟨_, _, hc⟩ => absurd hc hf⟩

theorem le_length_takeWhile_iff {α : Type} (p : α → Bool) (l : List α) (n : Nat) :
    n ≤ (l.takeWhile p).length ↔ n ≤ l.length ∧ ∀ x ∈ l.take n, p x = true := by
  induction l generalizing n with
  | nil => simp +contextual
  | cons a l ih =>
    cases n with
    | zero => simp
    | succ n => cases h : p a <;> simp [h, ih]

/-- The open run has at least `n` samples exactly when the last `n` are all contrary. -/
theorem le_contraryRun_iff (cfg : Config) (d : DbState) (raws : List Bool) (n : Nat) :
    n ≤ contraryRun cfg d raws
      ↔ n ≤ raws.length ∧ ∀ x ∈ raws.drop (raws.length - n), x = !confirmedLevel cfg d := by
  rw [contraryRun, le_length_takeWhile_iff, List.length_reverse]
  refine and_congr_right fun hn => ?_
  rw [List.take_reverse]
  simp [Bool.eq_not]

/-- The window property for either event (R95). -/
theorem event_eq_leave_iff_window {cfg : Config} (hthr : cfg.threshold ≠ 0) (d d' : DbState) (raws : List Bool)
    (raw : Bool) :
    (filterStep cfg raw (filterEnd cfg d 0 raws).1 (filterEnd cfg d 0 raws).2).2.2 = leaveEvent d'
      ↔ (filterEnd cfg d 0 raws).1 = d' ∧ cfg.threshold.toNat ≤ (raws ++ [raw]).length
        ∧ ∀ x ∈ (raws ++ [raw]).drop ((raws ++ [raw]).length - cfg.threshold.toNat), x = !confirmedLevel cfg d' := by
  have hpos : 0 < cfg.threshold := (BitVec.pos_iff_ne_zero _).2 hthr
  have hlt := filterEnd_count_lt hpos d raws
  have hrun := filterEnd_count_eq_contraryRun hpos d raws
  rw [filterStep_event_eq_leave_iff, count_succ_eq_iff hlt, hrun, ← le_contraryRun_iff]
  rw [BitVec.lt_def, hrun] at hlt
  refine and_congr_right fun hd => ?_
  subst hd
  by_cases hm : raw = confirmedLevel cfg (filterEnd cfg d 0 raws).1
  · rw [contraryRun_concat_match hm]
    exact ⟨fun h => absurd hm h.1, fun h => by omega⟩
  · rw [contraryRun_concat_contrary hm]
    exact ⟨fun h => h.2.ge, fun h => ⟨hm, by omega⟩⟩

/-- Settles O16: the counter is the open run of contrary samples, so it is one below THRESHOLD before a contrary sample
exactly when that sample completes a full window. -/
theorem eventIffWindowOfContrarySamples : Obligations.EventIffWindowOfContrarySamples := by
  intro cfg d raws raw hthr
  refine ⟨event_eq_leave_iff_window hthr d .asserted raws raw, ?_⟩
  have hwindow := event_eq_leave_iff_window hthr d .deasserted raws raw
  rwa [confirmedLevel, Bool.not_not] at hwindow

/-- A run of contrary samples that stays below THRESHOLD is counted, and is silent. -/
theorem filter_contrary_run {cfg : Config} (d : DbState) {c : BitVec 8} {k : Nat}
    (h : c.toNat + k < cfg.threshold.toNat) :
    filterEnd cfg d c (List.replicate k (!confirmedLevel cfg d)) = (d, c + BitVec.ofNat 8 k)
    ∧ filterEvents cfg d c (List.replicate k (!confirmedLevel cfg d)) = List.replicate k .nothing := by
  induction k generalizing c with
  | zero => exact ⟨by simp [filterEnd], rfl⟩
  | succ k ih =>
    have hlt : c < cfg.threshold := by rw [BitVec.lt_def]; omega
    have hs := count_succ_toNat hlt
    obtain ⟨hm, -⟩ | ⟨-, hf, -⟩ | ⟨-, -, e⟩ := filterStep_cases cfg (!confirmedLevel cfg d) d c
    · simp at hm
    · rw [count_succ_eq_iff hlt] at hf
      omega
    · obtain ⟨hend, hev⟩ := ih (c := c + 1) (by omega)
      have hsum : BitVec.ofNat 8 (k + 1) = 1 + BitVec.ofNat 8 k := by rw [Nat.add_comm, BitVec.ofNat_add]; rfl
      constructor
      · rw [List.replicate_succ, filterEnd, e, hend, hsum, BitVec.add_assoc]
      · rw [List.replicate_succ, filterEvents, e, hev, List.replicate_succ]

/-- Settles O17: THRESHOLD - 1 contrary samples are only counted; then a matching sample clears the counter, and a
contrary one completes it. -/
theorem boundaryOfTheThreshold : Obligations.BoundaryOfTheThreshold := by
  intro cfg d hthr n level
  have hn : 0 < n := Nat.pos_of_ne_zero fun h => hthr (BitVec.eq_of_toNat_eq h)
  obtain ⟨hend, hev⟩ := filter_contrary_run (cfg := cfg) d (c := 0) (k := n - 1) (by simp; omega)
  have hsplit : List.replicate n (!level) = List.replicate (n - 1) (!level) ++ [!level] := by
    rw [← List.replicate_succ', Nat.sub_add_cancel hn]
  have hmatch : filterStep cfg level d (0 + BitVec.ofNat 8 (n - 1)) = (d, 0, .nothing) := filterStep_match rfl _
  have hlast : 0 + BitVec.ofNat 8 (n - 1) + 1 = cfg.threshold := by
    apply BitVec.eq_of_toNat_eq
    have := cfg.threshold.isLt
    simp [BitVec.toNat_add]
    omega
  have hflip : filterStep cfg (!level) d (0 + BitVec.ofNat 8 (n - 1)) = (flipped d, 0, leaveEvent d) := by
    obtain ⟨hm, -⟩ | ⟨-, -, e⟩ | ⟨-, hf, -⟩ := filterStep_cases cfg (!level) d (0 + BitVec.ofNat 8 (n - 1))
    · simp [level] at hm
    · exact e
    · exact absurd hlast hf
  refine ⟨?_, ?_, ?_, ?_⟩
  · rw [filterEnd_append, hend, filterEnd, hmatch]
    rfl
  · rw [filterEvents_append, hend, hev, filterEvents, hmatch, filterEvents, ← List.replicate_succ',
      Nat.sub_add_cancel hn]
  · rw [hsplit, filterEnd_append, hend, filterEnd, hflip]
    rfl
  · rw [hsplit, filterEvents_append, hend, hev, filterEvents, hflip, filterEvents]

/-- From a counter at `c` an event needs the samples that are missing to THRESHOLD. -/
theorem threshold_le_of_event {cfg : Config} {d : DbState} {c : BitVec 8} {raws : List Bool} {j : Nat}
    {b : ButtonEvent} (h : (filterEvents cfg d c raws)[j]? = some b) (hb : b ≠ .nothing) :
    cfg.threshold.toNat ≤ c.toNat + j + 1 := by
  induction raws generalizing d c j with
  | nil => simp [filterEvents] at h
  | cons x xs ih =>
    have hsucc : (c + 1).toNat ≤ c.toNat + 1 := by
      rw [BitVec.toNat_add]
      exact Nat.mod_le _ _
    rw [filterEvents] at h
    cases j with
    | zero =>
      obtain ⟨-, e⟩ | ⟨-, hf, -⟩ | ⟨-, -, e⟩ := filterStep_cases cfg x d c
      · exact absurd (by simpa [e] using h.symm) hb
      · rw [← hf]
        exact hsucc
      · exact absurd (by simpa [e] using h.symm) hb
    | succ j =>
      have hlater := ih h
      have hcount : (filterStep cfg x d c).2.1.toNat ≤ c.toNat + 1 := by
        obtain ⟨-, e⟩ | ⟨-, -, e⟩ | ⟨-, -, e⟩ := filterStep_cases cfg x d c <;> rw [e]
        · exact Nat.zero_le _
        · exact Nat.zero_le _
        · exact hsucc
      omega

/-- An event leaves some confirmed state, and the events after it are those of a filter in the other state with a
cleared counter. -/
theorem filterEvents_after_event {cfg : Config} {d : DbState} {c : BitVec 8} {raws : List Bool} {i : Nat}
    {a : ButtonEvent} (h : (filterEvents cfg d c raws)[i]? = some a) (ha : a ≠ .nothing) :
    ∃ d', a = leaveEvent d'
      ∧ ∀ k, (filterEvents cfg d c raws)[i + 1 + k]? = (filterEvents cfg (flipped d') 0 (raws.drop (i + 1)))[k]? := by
  induction raws generalizing d c i with
  | nil => simp [filterEvents] at h
  | cons x xs ih =>
    rw [filterEvents] at h ⊢
    cases i with
    | zero =>
      obtain ⟨-, e⟩ | ⟨-, -, e⟩ | ⟨-, -, e⟩ := filterStep_cases cfg x d c
      · exact absurd (by simpa [e] using h.symm) ha
      · refine ⟨d, by simpa [e] using h.symm, fun k => ?_⟩
        rw [e, Nat.zero_add, Nat.add_comm 1 k]
        rfl
      · exact absurd (by simpa [e] using h.symm) ha
    | succ i =>
      obtain ⟨d', ha', hk⟩ := ih h
      refine ⟨d', ha', fun k => ?_⟩
      rw [Nat.add_right_comm _ 1 k]
      exact hk k

/-- Before the filter can leave the other confirmed state it must leave this one (R97). -/
theorem leave_before_leave_flipped {cfg : Config} {d : DbState} {c : BitVec 8} {raws : List Bool} {j : Nat}
    (h : (filterEvents cfg d c raws)[j]? = some (leaveEvent (flipped d))) :
    ∃ k < j, (filterEvents cfg d c raws)[k]? = some (leaveEvent d) := by
  induction raws generalizing c j with
  | nil => simp [filterEvents] at h
  | cons x xs ih =>
    rw [filterEvents] at h ⊢
    obtain ⟨hn, hd⟩ | ⟨hl, -⟩ := filterStep_event cfg x d c
    · rw [hn, hd] at h ⊢
      cases j with
      | zero => exact absurd (by simpa using h) (leaveEvent_ne_nothing (flipped d)).symm
      | succ j =>
        obtain ⟨k, hk, e⟩ := ih h
        exact ⟨k + 1, Nat.succ_lt_succ hk, e⟩
    · rw [hl] at h ⊢
      cases j with
      | zero => exact absurd (leaveEvent_inj.1 (by simpa using h.symm)) (flipped_ne d)
      | succ j => exact ⟨0, Nat.succ_pos j, rfl⟩

/-- Settles O18: after an event the filter starts anew in the other state, with a cleared counter. -/
theorem eventsAlternateAndAreThresholdApart : Obligations.EventsAlternateAndAreThresholdApart := by
  intro cfg d raws j b hthr hj hb
  refine ⟨by simpa using threshold_le_of_event hj hb, fun i a hij hi ha => ?_⟩
  obtain ⟨d', rfl, hafter⟩ := filterEvents_after_event hi ha
  obtain ⟨m, rfl⟩ : ∃ m, j = i + 1 + m := ⟨j - (i + 1), by omega⟩
  have hm := (hafter m).symm.trans hj
  refine ⟨?_, fun hab => ?_⟩
  · have hgap := threshold_le_of_event hm hb
    have hzero : (0 : BitVec 8).toNat = 0 := rfl
    omega
  · have hm : (filterEvents cfg (flipped d') 0 (raws.drop (i + 1)))[m]? = some (leaveEvent (flipped (flipped d'))) := by
      rw [hm, ← hab, flipped_flipped]
    obtain ⟨k, hk, e⟩ := leave_before_leave_flipped hm
    exact ⟨i + 1 + k, leaveEvent (flipped d'), by omega, by omega, (hafter k).trans e, leaveEvent_ne_nothing _,
      fun h => flipped_ne d' (leaveEvent_inj.1 h)⟩

end Sys2Proof.Machine

/-! ### Each instruction's words by number, and the terms out of range (R70 to R75, R116 to R118) -/

namespace Sys2Proof

/-- Settles O2. -/
theorem decodeOfEncodeIsTheInstruction : Obligations.DecodeOfEncodeIsTheInstruction := fun _ => decode_encode

/-- Settles O3. -/
theorem encodeOfDecodeIsTheWord : Obligations.EncodeOfDecodeIsTheWord := fun _ _ h =>
  have ⟨hw, hwf⟩ := eq_encode_of_decode h
  ⟨hw.symm, hwf⟩

/-- Settles O1: each of the words is a closed term, read by the decoder and by R73's table. -/
theorem writtenWordsDecode : Obligations.WrittenWordsDecode := by
  unfold Obligations.WrittenWordsDecode
  decide

/-- A field that lies below bit `n` fills the zeros of a word that is a multiple of `2 ^ n`. -/
theorem toNat_or_of_lt {a b : Word} {n k : Nat} (ha : a.toNat = 2 ^ n * k) (hb : b.toNat < 2 ^ n) :
    (a ||| b).toNat = a.toNat + b.toNat := by
  rw [BitVec.toNat_or, ha, Nat.two_pow_add_eq_or_of_lt hb]

theorem placePitch_toNat (p : Pitch) : (placePitch p).toNat = p.toNat := by
  have := p.isLt
  simp [placePitch]
  omega

theorem placePayload_toNat (x : Payload) : (placePayload x).toNat = x.toNat := by
  have := x.isLt
  simp [placePayload]
  omega

theorem placeDur_toNat (d : Dur) : (placeDur d).toNat = d.toNat * 65536 := by
  have := d.isLt
  simp [placeDur, Nat.shiftLeft_eq]
  omega

theorem encode_beginNote_toNat (p : Pitch) : (encode (.beginNote p)).toNat = 0x20000000 + p.toNat := by
  have hp := p.isLt
  rw [encode, toNat_or_of_lt (n := 16) (k := 8192) rfl (by rwa [placePitch_toNat]), placePitch_toNat]
  rfl

theorem encode_rest_toNat (d : Dur) : (encode (.rest d)).toNat = 0x80000000 + d.toNat * 65536 := by
  have hd := d.isLt
  rw [encode, toNat_or_of_lt (n := 29) (k := 4) rfl (by rw [placeDur_toNat]; omega), placeDur_toNat]
  rfl

theorem encode_note_toNat (p : Pitch) (d : Dur) :
    (encode (.note p d)).toNat = 0x60000000 + d.toNat * 65536 + p.toNat := by
  have hp := p.isLt
  have hd := d.isLt
  have hhigh : ((0x60000000 : Word) ||| placeDur d).toNat = 0x60000000 + d.toNat * 65536 := by
    rw [toNat_or_of_lt (n := 29) (k := 3) rfl (by rw [placeDur_toNat]; omega), placeDur_toNat]
    rfl
  have hmul : ((0x60000000 : Word) ||| placeDur d).toNat = 2 ^ 16 * (24576 + d.toNat) := by omega
  rw [encode, toNat_or_of_lt hmul (by rwa [placePitch_toNat]), placePitch_toNat]
  exact congrArg (· + p.toNat) hhigh

theorem encode_reserved101_toNat (x : Payload) : (encode (.reserved101 x)).toNat = 0xA0000000 + x.toNat := by
  have hx := x.isLt
  rw [encode, toNat_or_of_lt (n := 29) (k := 5) rfl (by rwa [placePayload_toNat]), placePayload_toNat]
  rfl

theorem encode_reserved110_toNat (x : Payload) : (encode (.reserved110 x)).toNat = 0xC0000000 + x.toNat := by
  have hx := x.isLt
  rw [encode, toNat_or_of_lt (n := 29) (k := 6) rfl (by rwa [placePayload_toNat]), placePayload_toNat]
  rfl

theorem encode_reserved111_toNat (x : Payload) : (encode (.reserved111 x)).toNat = 0xE0000000 + x.toNat := by
  have hx := x.isLt
  rw [encode, toNat_or_of_lt (n := 29) (k := 7) rfl (by rwa [placePayload_toNat]), placePayload_toNat]
  rfl

theorem bitVec_ne_zero_iff_toNat {n : Nat} {x : BitVec n} : x ≠ 0 ↔ x.toNat ≠ 0 := by
  rw [Ne, ← BitVec.toNat_inj]
  rfl

theorem wellFormed_beginNote {p : Pitch} : (Instr.beginNote p).wellFormed = true ↔ p ≠ 0 := by
  simp [Instr.wellFormed, pitchOk]

theorem wellFormed_note {p : Pitch} {d : Dur} : (Instr.note p d).wellFormed = true ↔ p ≠ 0 ∧ d ≠ 0 := by
  simp [Instr.wellFormed, pitchOk, durOk]

theorem wellFormed_rest {d : Dur} : (Instr.rest d).wellFormed = true ↔ d ≠ 0 := by
  simp [Instr.wellFormed, durOk]

theorem legal_iff {i : Instr} : i.legal = true ↔ i.isCommand = true ∧ i.wellFormed = true := by
  simp [Instr.legal]

/-- A word is read as `i` exactly when it has the number of `i`'s word and `i` is well formed. -/
theorem decode_eq_ok_iff_toNat {w : Word} {i : Instr} :
    decode w = .ok i ↔ i.wellFormed = true ∧ w.toNat = (encode i).toNat := by
  rw [decode_eq_ok_iff, and_comm, BitVec.toNat_inj]

/-- Settles O4: the words of an instruction, by the number of its encoding and the range of its operands. -/
theorem wordsOfEachInstruction : Obligations.WordsOfEachInstruction := by
  intro w
  refine ⟨?_, fun p => ?_, ?_, fun p d => ?_, fun d => ?_, fun x => ?_, fun x => ?_, fun x => ?_⟩ <;>
    rw [decode_eq_ok_iff_toNat]
  · exact and_iff_right rfl
  · rw [wellFormed_beginNote, bitVec_ne_zero_iff_toNat, encode_beginNote_toNat]
  · exact and_iff_right rfl
  · rw [wellFormed_note, bitVec_ne_zero_iff_toNat, bitVec_ne_zero_iff_toNat, encode_note_toNat, and_assoc]
  · rw [wellFormed_rest, bitVec_ne_zero_iff_toNat, encode_rest_toNat]
  · rw [encode_reserved101_toNat]
    exact and_iff_right rfl
  · rw [encode_reserved110_toNat]
    exact and_iff_right rfl
  · rw [encode_reserved111_toNat]
    exact and_iff_right rfl

end Sys2Proof

namespace Sys2Proof.Machine

theorem exec_note {p : Pitch} {d : Dur} (hp : p ≠ 0) (hd : d ≠ 0) (s : State) :
    exec (.note p d) s = .next ((s.play p).setTicksRemaining d) := by
  have hok : (pitchOk p && durOk d) = true := wellFormed_note.2 ⟨hp, hd⟩
  simp only [exec, execNote, hok, if_true]

theorem exec_rest {d : Dur} (hd : d ≠ 0) (s : State) : exec (.rest d) s = .next (s.silence.setTicksRemaining d) := by
  have hok : durOk d = true := wellFormed_rest.2 hd
  simp only [exec, execRest, hok, if_true]

/-- Settles O9: the words of NOTE are those its well-formed terms encode to, and such a term runs as `play` and the
load of its duration. -/
theorem notePlaysForItsDuration : Obligations.NotePlaysForItsDuration := by
  refine ⟨fun w p d => ?_, fun p d s hp hd => exec_note hp hd s⟩
  rw [decode_eq_ok_iff, wellFormed_note, and_comm, and_assoc]
  rfl

/-- Settles O10: the words of REST are those its well-formed terms encode to, and such a term runs as `silence` and the
load of its duration. -/
theorem restSilencesForItsDuration : Obligations.RestSilencesForItsDuration := by
  refine ⟨fun w d => ?_, fun d s hd => exec_rest hd s⟩
  rw [decode_eq_ok_iff, wellFormed_rest, and_comm]
  rfl

theorem illegalCommand_of_running {s : State} (h : s.halted = false) (w : Word) :
    illegalCommand w s = .next (s.haltWith .illegalCommand w) := by
  rw [illegalCommand, raiseFault_of_running h]

theorem illegalCommand_of_halted {s : State} (h : s.halted = true) (w : Word) : illegalCommand w s = .next s := by
  rw [illegalCommand, raiseFault_of_halted h]

/-- Settles O11: no reserved row is a legal command, so each runs as the fault of its own word. -/
theorem reservedOpcodesEnterTheFault : Obligations.ReservedOpcodesEnterTheFault :=
  ⟨fun x _ h => ⟨illegalCommand_of_running h (encode (.reserved101 x)),
      illegalCommand_of_running h (encode (.reserved110 x)), illegalCommand_of_running h (encode (.reserved111 x))⟩,
    fun x _ h => ⟨illegalCommand_of_halted h (encode (.reserved101 x)),
      illegalCommand_of_halted h (encode (.reserved110 x)), illegalCommand_of_halted h (encode (.reserved111 x))⟩⟩

/-- Settles O12: a term that is not well formed is no legal command. -/
theorem outOfRangeOperandsEnterTheFault : Obligations.OutOfRangeOperandsEnterTheFault := by
  intro i s hwf hrun
  have hl : i.legal = false := by simp [Instr.legal, hwf]
  exact ⟨(legalWord_encode i).trans hl, (exec_of_not_legal hl s).trans (illegalCommand_of_running hrun _)⟩

end Sys2Proof.Machine

/-! ### What one step makes of a state, by the event that was due (R17) -/

namespace Sys2Proof.Machine

/-- Everything the step from `s` may answer, by the event that was due: each event's own effect, a whole TICK, or the
begun step itself, when no event was due, TICK was not enabled, or a halted block ignored the turn. -/
inductive StepResult (s : State) : Option Event → State → Prop where
  | reset : StepResult s (some .reset) s.beginStep.installReset
  | enable (hrun : s.halted = false) : StepResult s (some .enableTicks) s.beginStep.setEnabled
  | fire : StepResult s (some .tickFire) s.beginStep.setPending
  | fatal (k : FatalKind) (hrun : s.halted = false) :
      StepResult s (some (.fatal k)) (s.beginStep.haltWith (fatalCode k) 0)
  | tick (raw : Bool) {t : State} (hen : s.tickEnabled = true) (ht : tick raw s.beginStep = .next t) :
      StepResult s (some (.tick raw)) t
  | held {due : Option Event} (hreset : due ≠ some .reset) (hfire : due ≠ some .tickFire) :
      StepResult s due s.beginStep

theorem step_result {s t : State} (h : step s = .next t) : StepResult s (nextEvent s) t := by
  obtain ⟨-, ⟨hn, -, rfl⟩ | ⟨e, hn, ht⟩⟩ := step_cases h
  · rw [hn]
    exact .held (by simp) (by simp)
  · rw [hn]
    obtain ⟨rfl, rfl⟩ | ⟨rfl, rfl⟩ | ⟨rfl, rfl⟩ | ⟨k, rfl, rfl⟩ | ⟨raw, rfl, -, rfl⟩ | ⟨raw, rfl, hen, hk⟩ :=
      takeEvent_cases ht
    · exact .reset
    · obtain ⟨-, e⟩ | ⟨hrun, e⟩ := enableTicks_cases s.beginStep <;> rw [e]
      · exact .held (by simp) (by simp)
      · exact .enable hrun
    · exact .fire
    · obtain ⟨-, e⟩ | ⟨hrun, e⟩ := fatal_cases k s.beginStep <;> rw [e]
      · exact .held (by simp) (by simp)
      · exact .fatal k hrun
    · exact .held (by simp) (by simp)
    · exact .tick raw hen hk

/-- A turn is always answered by a next state: only a TICK could fail to pull, and not with `src_pos` in range. -/
theorem takeEvent_next {s : State} (e : Event) (h : s.tickEnabled = true → s.srcPos < s.cfg.song.length) :
    ∃ t, takeEvent e s = .next t := by
  cases e with
  | tick raw =>
    cases hen : s.tickEnabled with
    | false => exact ⟨s, by simp [takeEvent, takeTick, hen]⟩
    | true =>
      obtain ⟨t, ht⟩ := tick_next raw (h hen)
      exact ⟨t, by simp [takeEvent, takeTick, hen, ht]⟩
  | _ => exact ⟨_, rfl⟩

/-! ### The six invariants (R40) -/

theorem configLegal_iff {cfg : Config} :
    configLegal cfg = true ↔ cfg.threshold ≠ 0 ∧ cfg.song ≠ [] ∧ 0 < cfg.tickPeriodUs := by
  simp [configLegal, and_assoc]

theorem dbCountInRange_iff {s : State} : s.dbCountInRange = true ↔ s.dbCount < s.cfg.threshold := by
  simp [State.dbCountInRange]

/-- The reset values of R41 meet the invariants under a legal configuration. -/
theorem boot_inv {cfg : Config} (h : configLegal cfg = true) (turns : List Event) : (State.boot cfg turns).Inv := by
  obtain ⟨hthr, hsong, -⟩ := configLegal_iff.1 h
  exact {
    count := (BitVec.pos_iff_ne_zero _).2 hthr
    off := fun _ => ⟨rfl, rfl⟩
    on := fun hl => by cases hl
    code := ⟨fun _ => rfl, fun _ => rfl⟩
    word := fun _ => rfl
    pos := List.length_pos_iff.2 hsong }

theorem State.Inv.of_beginStep {s : State} (h : s.Inv) : s.beginStep.Inv :=
  ⟨h.count, h.off, h.on, h.code, h.word, h.pos⟩

theorem State.Inv.of_arrive {s : State} (h : s.Inv) (es : List Event) : (s.arrive es).Inv :=
  ⟨h.count, h.off, h.on, h.code, h.word, h.pos⟩

theorem installReset_inv {s : State} (h : configLegal s.cfg = true) : s.installReset.Inv := by
  obtain ⟨hcount, hoff, hon, hcode, hword, hpos⟩ := boot_inv h []
  exact ⟨hcount, hoff, hon, hcode, hword, hpos⟩

/-- Fault entry meets the invariants when the code and the word agree (invariants 4 and 5). -/
theorem State.Inv.of_haltWith {s : State} (h : s.Inv) {code : FaultCode} {w : Word} (hc : code ≠ .none)
    (hw : code ≠ .illegalCommand → w = 0) : (s.haltWith code w).Inv :=
  { count := h.count, off := h.off, on := h.on, pos := h.pos, word := hw
    code := ⟨fun hh => (by cases hh), fun hh => absurd hh hc⟩ }

/-- While the indicator is on, running a command keeps the invariants: it may start a sound. -/
theorem ExecResult.inv {s t : State} (h : ExecResult s t) (hs : s.Inv) (hon : s.led = true) : t.Inv := by
  have hsound {u : State} (hl : u.led = true) : u.led = false → u.toneMuted = true ∧ u.toneSounding = false :=
    fun hf => by simp [hl] at hf
  cases h with
  | same => exact hs
  | play p => exact { hs with off := hsound hon }
  | silence => exact { hs with off := hsound hon }
  | playFor p d => exact { hs with off := hsound hon }
  | silenceFor d => exact { hs with off := hsound hon }
  | illegal w =>
    obtain ⟨-, e⟩ | ⟨-, e⟩ := raiseFault_cases .illegalCommand w s <;> rw [e]
    · exact hs
    · exact hs.of_haltWith (by simp) (by simp)

theorem advance_inv {s t : State} (h : advance s = .next t) (hs : s.Inv) (hon : s.led = true) : t.Inv := by
  obtain ⟨-, rfl⟩ | ⟨-, w, -, hr⟩ := advance_cases h
  · exact ⟨hs.count, hs.off, hs.on, hs.code, hs.word, hs.pos⟩
  · have hlen : 0 < s.cfg.song.length := Nat.zero_lt_of_lt hs.pos
    exact (runWord_inv hr).inv ⟨hs.count, hs.off, hs.on, hs.code, hs.word, Nat.mod_lt _ hlen⟩ hon

theorem sampled_inv {s : State} (hs : s.Inv) (raw : Bool) : (sampled raw s).Inv :=
  ⟨filterStep_count_lt hs.count raw s.dbState, hs.off, hs.on, hs.code, hs.word, hs.pos⟩

theorem tickFront_inv {s : State} (hs : s.Inv) (raw : Bool) : (tickFront raw s).Inv := by
  have hf := sampled_inv hs raw
  obtain ⟨-, e⟩ | ⟨-, -, e⟩ | ⟨-, -, e⟩ := tickFront_cases raw s
  · rwa [e]
  · rw [e]
    exact { hf with off := fun hl => (by cases hl), on := fun _ => rfl }
  · rw [e]
    obtain ⟨-, ed⟩ | ⟨-, ed⟩ := disarm_cases ((sampled raw s).setLed false) <;> rw [ed]
    · exact { hf with off := fun _ => ⟨rfl, rfl⟩, on := fun hl => (by cases hl) }
    · exact { hf with
        off := fun _ => ⟨rfl, rfl⟩, on := fun hl => (by cases hl), pos := Nat.zero_lt_of_lt hf.pos }

theorem tick_inv {raw : Bool} {s t : State} (h : tick raw s = .next t) (hs : s.Inv) : t.Inv := by
  obtain ⟨-, rfl⟩ | ⟨hon, ha⟩ := tick_cases h
  · exact tickFront_inv hs raw
  · exact advance_inv ha (tickFront_inv hs raw) hon

theorem step_inv {s t : State} (hs : s.Inv) (h : step s = .next t) : t.Inv := by
  obtain ⟨htyped, -⟩ := step_cases h
  obtain ⟨hcfg, -⟩ := typed_iff.1 htyped
  have hb := hs.of_beginStep
  have hr := step_result h
  generalize nextEvent s = due at hr
  cases hr with
  | reset => exact installReset_inv hcfg
  | enable => exact ⟨hb.count, hb.off, hb.on, hb.code, hb.word, hb.pos⟩
  | fire => exact ⟨hb.count, hb.off, hb.on, hb.code, hb.word, hb.pos⟩
  | fatal k => exact hb.of_haltWith (by cases k <;> simp [fatalCode]) (fun _ => rfl)
  | tick raw _ ht => exact tick_inv ht hb
  | held => exact hb

/-- Settles O49: each event's effect meets the invariants, and so does each part of a TICK. -/
theorem stepKeepsTheInvariants : Obligations.StepKeepsTheInvariants := fun _ _ => step_inv

/-- Settles O48. -/
theorem resetMeetsTheInvariants : Obligations.ResetMeetsTheInvariants :=
  ⟨boot_inv rfl [], fun _ turns h => boot_inv h turns⟩

/-- Settles O50: boot meets the invariants, a step keeps them, and turns that join touch none of their fields. -/
theorem reachableStatesMeetTheInvariants : Obligations.ReachableStatesMeetTheInvariants := by
  intro cfg s hcfg hreach
  induction hreach with
  | boot turns => exact ⟨boot_inv hcfg turns, rfl⟩
  | step _ hstep ih =>
    obtain ⟨hinv, hc⟩ := ih
    exact ⟨step_inv hinv hstep, (step_cfg hstep).trans hc⟩
  | turns more _ ih =>
    obtain ⟨hinv, hc⟩ := ih
    exact ⟨hinv.of_arrive more, hc⟩

/-! ### A legal SONG runs without a fault (R165, R188) -/

theorem typed_of_inv {s : State} (hs : s.Inv) (hcfg : configLegal s.cfg = true) : s.typed = true :=
  typed_iff.2 ⟨hcfg, dbCountInRange_iff.2 hs.count⟩

/-- A running block that meets the invariants always answers a next state. -/
theorem step_next {s : State} (hs : s.Inv) (hcfg : configLegal s.cfg = true) (hrun : s.halted = false) :
    ∃ t, step s = .next t := by
  rw [step_of_typed (typed_of_inv hs hcfg), takeTurn]
  cases nextEvent s with
  | none => exact ⟨s.beginStep, by simp [idle, hrun]⟩
  | some e => exact takeEvent_next e fun _ => hs.pos

/-- A running block that no FATAL waits for, under a SONG of legal words, is not halted by its step. -/
theorem step_not_halted {s t : State} (h : step s = .next t) (hrun : s.halted = false)
    (hsong : ∀ w ∈ s.cfg.song, legalWord w = true) (hfatal : ∀ k, .fatal k ∉ s.inbox) : t.halted = false := by
  rw [← Bool.not_eq_true]
  intro hhalt
  obtain ⟨k, hk, -⟩ | ⟨raw, w, -, -, hpull, hl, -⟩ := onlyFatalOrAnIllegalWordHalts s t h hrun hhalt
  · have hmem : .fatal k ∈ s.inbox := by
      rw [inbox_of_nextEvent hk (by simp)]
      exact List.mem_cons_self
    exact hfatal k hmem
  · have hmem : w ∈ s.cfg.song := List.mem_of_getElem? (step_pull_song h hpull)
    simp [hsong w hmem] at hl

/-- Settles O51: the step exists, keeps every hypothesis, and halts for neither of the two reasons there are. -/
theorem legalSongRunsWithoutFault : Obligations.LegalSongRunsWithoutFault := by
  intro n
  induction n with
  | zero => exact fun s _ _ hrun _ _ => hrun
  | succ n ih =>
    intro s hs hcfg hrun hsong hfatal
    obtain ⟨t, ht⟩ := step_next hs hcfg hrun
    obtain ⟨hc, hinbox, -⟩ := step_outputs ht
    refine ⟨hrun, t, ht, ih t (step_inv hs ht) ?_ (step_not_halted ht hrun hsong hfatal) ?_ fun k hk => hfatal k ?_⟩
    · rwa [hc]
    · rwa [hc]
    · rw [hinbox] at hk
      exact List.mem_of_mem_tail hk

end Sys2Proof.Machine

/-! ### What each field of the block may do in one step (R31, R32, R94, R145, R165) -/

namespace Sys2Proof.Machine

/-- The filter's fields after a TICK are what DEBOUNCE_STEP made of them. -/
theorem tick_filter {raw : Bool} {s t : State} (h : tick raw s = .next t) :
    t.dbState = (filterStep s.cfg raw s.dbState s.dbCount).1
    ∧ t.dbCount = (filterStep s.cfg raw s.dbState s.dbCount).2.1 := by
  obtain ⟨-, hd, hc, -⟩ := tickFront_frame raw s
  obtain ⟨-, rfl⟩ | ⟨-, ha⟩ := tick_cases h
  · exact ⟨hd, hc⟩
  · obtain ⟨-, ad, ac, -⟩ := advance_frame ha
    exact ⟨ad.trans hd, ac.trans hc⟩

/-- Settles O15: only a TICK runs the filter, and its three outcomes are a match, a flip and a count. -/
theorem counterStepsByOneOrClears : Obligations.CounterStepsByOneOrClears := by
  intro s t h
  obtain ⟨htyped, -⟩ := step_cases h
  have hlt : s.dbCount < s.cfg.threshold := dbCountInRange_iff.1 (typed_iff.1 htyped).2
  have hr := step_result h
  generalize nextEvent s = due at hr ⊢
  cases hr with
  | reset => exact ⟨.inr (.inr rfl), fun _ hne => absurd rfl hne⟩
  | enable => exact ⟨.inl rfl, fun hne => absurd rfl hne⟩
  | fire => exact ⟨.inl rfl, fun hne => absurd rfl hne⟩
  | fatal k => exact ⟨.inl rfl, fun hne => absurd rfl hne⟩
  | held => exact ⟨.inl rfl, fun hne => absurd rfl hne⟩
  | tick raw _ ht =>
    obtain ⟨hd, hc⟩ := tick_filter ht
    obtain ⟨-, e⟩ | ⟨-, hf, e⟩ | ⟨-, -, e⟩ := filterStep_cases s.cfg raw s.dbState s.dbCount
    · exact ⟨.inr (.inr (hc.trans (by simp [e]))), fun hne => absurd (hd.trans (by simp [e])) hne⟩
    · exact ⟨.inr (.inr (hc.trans (by simp [e]))),
        fun _ _ => ⟨⟨raw, rfl⟩, (count_succ_eq_iff hlt).1 hf, hc.trans (by simp [e])⟩⟩
    · have hcount : t.dbCount = s.dbCount + 1 := hc.trans (congrArg (fun r => r.2.1) e)
      refine ⟨.inr (.inl ?_), fun hne => absurd (hd.trans (by simp [e])) hne⟩
      rw [hcount, count_succ_toNat hlt]

/-- Settles O39: every event but RESET and TICK has an effect on its own fields only. -/
theorem onlyTickMovesTheStateMachines : Obligations.OnlyTickMovesTheStateMachines := by
  intro s t h hreset hagent
  have hr := step_result h
  generalize nextEvent s = due at hr hreset hagent ⊢
  cases hr with
  | reset => exact absurd rfl hreset
  | tick raw => exact absurd rfl (hagent (.tick raw) rfl)
  | enable => simp
  | fire => simp
  | fatal k => simp
  | held => simp

/-- Settles O40: a TICK keeps `ticks_enabled` and acknowledges its firing; no other event but RESET clears a flag. -/
theorem tickFlagsMoveOnlyByTheirEvents : Obligations.TickFlagsMoveOnlyByTheirEvents := by
  intro s t h
  have hr := step_result h
  generalize nextEvent s = due at hr ⊢
  cases hr with
  | reset => simp
  | tick raw hen ht =>
    obtain ⟨-, -, hacked, hkept, -⟩ := tick_frame ht
    simp [hkept, hacked, hen]
  | enable => simp +contextual
  | fire => simp +contextual
  | fatal k => simp +contextual
  | held => simp +contextual

/-- Settles O44: of the events that a halted block does not ignore, TICK_FIRE has its one flag and RESET lifts the
halt. -/
theorem haltedHoldsUntilReset : Obligations.HaltedHoldsUntilReset := by
  intro s t hhalted h
  have hr := step_result h
  generalize nextEvent s = due at hr ⊢
  cases hr with
  | reset => exact ⟨fun _ => rfl, fun hne => absurd rfl hne⟩
  | enable hrun => simp [hhalted] at hrun
  | fire => exact ⟨by simp, fun _ => rfl⟩
  | fatal k hrun => simp [hhalted] at hrun
  | tick raw hen =>
    obtain ⟨-, -, hrun⟩ := tickEnabled_iff.1 hen
    simp [hhalted] at hrun
  | held hreset hfire =>
    refine ⟨fun hd => absurd hd hreset, fun _ => ?_⟩
    rw [if_neg hfire]
    rfl

theorem tickEnabled_of_halted {s : State} (h : s.halted = true) : s.tickEnabled = false := by
  simp [State.tickEnabled, h]

theorem nextEvent_of_no_turn {s : State} (hi : s.inbox = []) (h : s.tickEnabled = false) : nextEvent s = none := by
  simp [nextEvent, hi, h]

/-- Settles O45: with no turn waiting TICK is not enabled either, so the step is idle; any waiting turn has an
answer. -/
theorem haltedWithNoTurnIsAFault : Obligations.HaltedWithNoTurnIsAFault := by
  intro s htyped hhalted
  have hoff := tickEnabled_of_halted hhalted
  have hturn (hne : s.inbox ≠ []) : ∃ t, step s = .next t := by
    obtain ⟨e, rest, hi⟩ := List.exists_cons_of_ne_nil hne
    rw [step_of_turn htyped hi]
    exact takeEvent_next e fun hen => by simp [hoff] at hen
  refine ⟨⟨fun hfault => ?_, fun hi => ?_⟩, hturn⟩
  · by_contra hne
    obtain ⟨t, ht⟩ := hturn hne
    simp [hfault] at ht
  · rw [step_of_typed htyped, takeTurn, nextEvent_of_no_turn hi hoff]
    exact if_pos hhalted

/-- The block as RESET leaves it, but for a pending firing and a fault (R183). -/
structure State.InReset (cfg : Config) (s : State) : Prop where
  cfg_eq : s.cfg = cfg
  ticksEnabled : s.ticksEnabled = false
  trace : s.trace = []
  eventOut : s.eventOut = none
  dbState : s.dbState = cfg.initialState
  dbCount : s.dbCount = 0
  led : s.led = false
  ticksRemaining : s.ticksRemaining = 0
  toneFreq : s.toneFreq = 0
  toneSounding : s.toneSounding = false
  toneMuted : s.toneMuted = true
  srcPos : s.srcPos = 0

theorem boot_inReset (cfg : Config) (turns : List Event) : (State.boot cfg turns).InReset cfg := by
  constructor <;> rfl

theorem State.InReset.of_beginStep {cfg : Config} {s : State} (h : s.InReset cfg) : s.beginStep.InReset cfg :=
  { h with trace := rfl, eventOut := rfl }

theorem step_keeps_inReset {cfg : Config} {s t : State} (hs : s.InReset cfg) (h : step s = .next t)
    (hne : nextEvent s ≠ some .enableTicks) : t.InReset cfg := by
  have hb := hs.of_beginStep
  have hr := step_result h
  generalize nextEvent s = due at hr hne
  cases hr with
  | reset =>
    constructor
    case cfg_eq => exact hs.cfg_eq
    case dbState => exact congrArg Config.initialState hs.cfg_eq
    all_goals rfl
  | enable => exact absurd rfl hne
  | fire => exact { hb with }
  | fatal k => exact { hb with }
  | tick raw hen =>
    obtain ⟨hon, -⟩ := tickEnabled_iff.1 hen
    simp [hs.ticksEnabled] at hon
  | held => exact hb

/-- Settles O56: what RESET leaves is kept by every step but ENABLE_TICKS, since TICK is not enabled. -/
theorem bringUpWithoutEnableStaysInReset : Obligations.BringUpWithoutEnableStaysInReset := by
  intro cfg turns n t hturns hrun
  have h : t.InReset cfg := core_run_before_enable (P := State.InReset cfg) (fun _ _ => step_keeps_inReset)
    (boot_inReset cfg turns) hturns hrun
  exact ⟨h.ticksEnabled, h.trace, h.eventOut, h.dbState, h.dbCount, h.led, h.ticksRemaining, h.toneFreq,
    h.toneSounding, h.toneMuted, h.srcPos⟩

/-! ### Pulls and `ticks_remaining` (R122, R124 to R126) -/

theorem filter_isPull_trace {s : State} : s.trace.filter isPull = (sourceActions s).filter isPull := by
  rw [sourceActions, List.filter_filter]
  congr 1
  funext a
  cases a <;> rfl

/-- A `SourceMove` makes at most one pull. -/
theorem SourceMove.length_pulls_le {s t : State} {acts : List Action} (h : SourceMove s t acts) :
    (acts.filter isPull).length ≤ 1 := by
  cases h <;> simp [isPull, List.filter_cons]

/-- A TICK that ends with the indicator off has not advanced, so it has pulled nothing (R144). -/
theorem tick_no_pull_of_off {raw : Bool} {s t : State} (h : tick raw s = .next t) (hs : s.trace = [])
    (hoff : t.led = false) : t.trace.filter isPull = [] := by
  have hs : sourceActions s = [] := by simp [sourceActions, hs]
  rw [filter_isPull_trace]
  obtain ⟨-, rfl⟩ | ⟨hon, ha⟩ := tick_cases h
  · obtain ⟨-, e⟩ | ⟨-, -, e⟩ := tickFront_source raw s <;> simp [e, hs, isPull]
  · obtain ⟨-, -, -, hl, -⟩ := advance_frame ha
    simp [hl, hon] at hoff

/-- Settles O22: only a TICK emits anything, and it moves the source at most once, with the indicator on for a pull. -/
theorem atMostOnePullPerStep : Obligations.AtMostOnePullPerStep := by
  intro s t h
  obtain ⟨-, -, -, ⟨raw, -, ht⟩ | ⟨-, -, htr⟩⟩ := step_outputs h
  · refine ⟨?_, fun hone => ?_⟩
    · rw [filter_isPull_trace]
      exact (tick_source ht rfl).length_pulls_le
    · by_contra hoff
      simp [tick_no_pull_of_off ht rfl (by simpa using hoff)] at hone
  · simp [htr]

/-- Running the pulled word leaves `ticks_remaining`, or loads it with the word's own duration (R116, R117). -/
theorem runWord_ticksRemaining {w : Word} {s t : State} (h : runWord w s = .next t) :
    t.ticksRemaining = s.ticksRemaining ∨ (t.ticksRemaining = durField w ∧ durField w ≠ 0) := by
  cases hl : legalWord w with
  | false =>
    rw [runWord_of_illegal hl, illegalCommand] at h
    cases h
    obtain ⟨-, e⟩ | ⟨-, e⟩ := raiseFault_cases .illegalCommand w s <;> exact .inl (by simp [e])
  | true =>
    obtain ⟨i, hi, -⟩ := (legalWord_iff_decode_legal w).1 hl
    obtain ⟨rfl, hwf⟩ := eq_encode_of_decode hi
    rw [runWord_of_decode hi] at h
    rw [legalWord_encode] at hl
    cases i with
    | wait => cases h; exact .inl rfl
    | beginNote p =>
      rw [exec_beginNote (wellFormed_beginNote.1 hwf)] at h
      cases h
      exact .inl rfl
    | endNote => cases h; exact .inl rfl
    | note p d =>
      obtain ⟨hp, hd⟩ := wellFormed_note.1 hwf
      rw [exec_note hp hd] at h
      cases h
      exact .inr (by simpa using hd)
    | rest d =>
      have hd := wellFormed_rest.1 hwf
      rw [exec_rest hd] at h
      cases h
      exact .inr (by simpa using hd)
    | reserved101 x => cases hl
    | reserved110 x => cases hl
    | reserved111 x => cases hl

/-- Steps 1 to 3 of a TICK leave `ticks_remaining`, or clear it with a restart and leave the indicator off. -/
theorem tickFront_ticksRemaining (raw : Bool) (s : State) :
    (tickFront raw s).ticksRemaining = s.ticksRemaining
    ∨ ((tickFront raw s).led = false ∧ (tickFront raw s).ticksRemaining = 0
        ∧ .restart ∈ (tickFront raw s).trace) := by
  obtain ⟨-, e⟩ | ⟨-, -, e⟩ | ⟨-, -, e⟩ := tickFront_cases raw s
  · exact .inl (by simp [e, sampled_eq])
  · exact .inl (by simp [e, sampled_eq])
  · obtain ⟨-, ed⟩ | ⟨-, ed⟩ := disarm_cases ((sampled raw s).setLed false) <;> rw [e, ed]
    · exact .inl rfl
    · exact .inr ⟨rfl, rfl, by simp⟩

/-- Settles O23: outside RESET only a restart and ADVANCE write `ticks_remaining`, and ADVANCE counts one off, or pulls
and clears or loads it. -/
theorem ticksRemainingNeverWraps : Obligations.TicksRemainingNeverWraps := by
  intro s t h
  have hr := step_result h
  generalize nextEvent s = due at hr ⊢
  cases hr with
  | reset => exact .inr (.inr (.inl ⟨rfl, .inl rfl⟩))
  | enable => exact .inl rfl
  | fire => exact .inl rfl
  | fatal k => exact .inl rfl
  | held => exact .inl rfl
  | tick raw _ ht =>
    have hfront := tickFront_ticksRemaining raw s.beginStep
    obtain ⟨-, rfl⟩ | ⟨hon, ha⟩ := tick_cases ht
    · obtain hkept | ⟨-, hzero, hrestart⟩ := hfront
      · exact .inl hkept
      · exact .inr (.inr (.inl ⟨hzero, .inr (.inl hrestart)⟩))
    · obtain hkept | ⟨hoff, -⟩ := hfront
      · have hkept : (tickFront raw s.beginStep).ticksRemaining = s.ticksRemaining := hkept
        obtain ⟨hcount, rfl⟩ | ⟨-, w, -, hrun⟩ := advance_cases ha
        · have hpred := ticks_pred_toNat (d := (tickFront raw s.beginStep).ticksRemaining) (by omega)
          refine .inr (.inl ?_)
          rw [State.setTicksRemaining_ticksRemaining, hpred, ← hkept]
          omega
        · obtain ⟨later, htrace⟩ := (runWord_inv hrun).trace
          have hpull : .pull w ∈ t.trace := by simp [htrace]
          obtain hzero | ⟨hload, hne⟩ := runWord_ticksRemaining hrun
          · exact .inr (.inr (.inl ⟨hzero, .inr (.inr ⟨w, hpull⟩)⟩))
          · exact .inr (.inr (.inr ⟨w, hpull, hload, hne⟩))
      · simp [hon] at hoff

/-- Settles O24: the first two clauses are the TICK's rules by branch of the toggle; the third holds of every TICK. -/
theorem disarmedTicksAreSilent : Obligations.DisarmedTicksAreSilent := by
  intro s raw rest htyped hi hen
  obtain ⟨hsilent, -, -, hresume, hrestart⟩ := toggleAndAdvanceFollowTheirRules s raw rest htyped hi hen
  refine ⟨fun hoff hn => ⟨_, hsilent hn hoff, hoff, rfl⟩, fun hon hp => ?_, fun t ht hoff => ?_⟩
  · cases hpol : s.cfg.rearmPolicy with
    | resume => exact ⟨_, hresume hp hon hpol, rfl, rfl⟩
    | restart => exact ⟨_, hrestart hp hon hpol, rfl, rfl⟩
  · rw [step_of_tick htyped hi hen] at ht
    exact tick_no_pull_of_off ht rfl hoff

end Sys2Proof.Machine

/-! ### The tracked outputs are what the actions leave (R18, R149) -/

namespace Sys2Proof.Machine

/-- The four output fields: `led` and the tone output (R24, R27 to R29). -/
def outputs (s : State) : Bool × Pitch × Bool × Bool := (s.led, s.toneFreq, s.toneSounding, s.toneMuted)

theorem outputs_eq_iff {s t : State} : outputs s = outputs t ↔
    s.led = t.led ∧ s.toneFreq = t.toneFreq ∧ s.toneSounding = t.toneSounding ∧ s.toneMuted = t.toneMuted := by
  simp [outputs]

/-- An action's effect on the outputs is a function of the outputs. -/
theorem outputs_foldl_congr {s t : State} (h : outputs s = outputs t) (acts : List Action) :
    outputs (acts.foldl outputAfter s) = outputs (acts.foldl outputAfter t) := by
  induction acts generalizing s t with
  | nil => exact h
  | cons a acts ih =>
    apply ih
    obtain ⟨hl, hf, hs, hm⟩ := outputs_eq_iff.1 h
    cases a <;> simp [outputs, outputAfter, hl, hf, hs, hm]

/-- The actions added between `s` and `t` leave, applied to `s` in order, the outputs of `t`. -/
def Follows (s t : State) : Prop :=
  ∃ acts, t.trace = s.trace ++ acts ∧ outputs t = outputs (acts.foldl outputAfter s)

theorem Follows.of_silent {s t : State} (ht : t.trace = s.trace) (ho : outputs t = outputs s) : Follows s t :=
  ⟨[], by simp [ht], ho⟩

theorem Follows.of_action {s t : State} (a : Action) (ht : t.trace = s.trace ++ [a])
    (ho : outputs t = outputs (outputAfter s a)) : Follows s t :=
  ⟨[a], ht, ho⟩

theorem Follows.trans {s t u : State} (hst : Follows s t) (htu : Follows t u) : Follows s u := by
  obtain ⟨xs, ht, hot⟩ := hst
  obtain ⟨ys, hu, hou⟩ := htu
  refine ⟨xs ++ ys, by rw [hu, ht, List.append_assoc], ?_⟩
  rw [hou, List.foldl_append]
  exact outputs_foldl_congr hot ys

theorem follows_play (s : State) (p : Pitch) : Follows s (s.play p) := .of_action (.play p) rfl rfl

theorem follows_silence (s : State) : Follows s s.silence := .of_action .silence rfl rfl

theorem follows_setTicksRemaining (s : State) (d : Dur) : Follows s (s.setTicksRemaining d) := .of_silent rfl rfl

theorem ExecResult.follows {s t : State} (h : ExecResult s t) : Follows s t := by
  cases h with
  | same => exact .of_silent rfl rfl
  | play p => exact follows_play s p
  | silence => exact follows_silence s
  | playFor p d => exact (follows_play s p).trans (follows_setTicksRemaining _ d)
  | silenceFor d => exact (follows_silence s).trans (follows_setTicksRemaining _ d)
  | illegal w =>
    obtain ⟨-, e⟩ | ⟨-, e⟩ := raiseFault_cases .illegalCommand w s <;> rw [e] <;> exact .of_silent rfl rfl

theorem advance_follows {s t : State} (h : advance s = .next t) : Follows s t := by
  obtain ⟨-, rfl⟩ | ⟨-, w, -, hr⟩ := advance_cases h
  · exact follows_setTicksRemaining s _
  · have hpull : Follows (s.setTicksRemaining 0) ((s.setTicksRemaining 0).consumeWord w) :=
      .of_action (.pull w) rfl rfl
    exact (follows_setTicksRemaining s 0).trans (hpull.trans (runWord_inv hr).follows)

theorem disarm_follows (s : State) : Follows s (disarm s) := by
  obtain ⟨-, e⟩ | ⟨-, e⟩ := disarm_cases s <;> rw [e]
  · exact follows_silence s
  · have hrestart (u : State) : Follows u u.restartSource := .of_action .restart rfl rfl
    exact (follows_silence s).trans ((follows_setTicksRemaining _ 0).trans (hrestart _))

theorem tickFront_follows (raw : Bool) (s : State) : Follows s (tickFront raw s) := by
  have hsampled : Follows s (sampled raw s) := .of_action .ack rfl rfl
  have hled (b : Bool) : Follows s ((sampled raw s).setLed b) := hsampled.trans (.of_action (.setLed b) rfl rfl)
  obtain ⟨-, e⟩ | ⟨-, -, e⟩ | ⟨-, -, e⟩ := tickFront_cases raw s <;> rw [e]
  · exact hsampled
  · exact (hled true).trans (.of_action .unmute rfl rfl)
  · exact (hled false).trans ((disarm_follows _).trans (.of_action .mute rfl rfl))

theorem tick_follows {raw : Bool} {s t : State} (h : tick raw s = .next t) : Follows s t := by
  obtain ⟨-, rfl⟩ | ⟨-, ha⟩ := tick_cases h
  · exact tickFront_follows raw s
  · exact (tickFront_follows raw s).trans (advance_follows ha)

/-- Settles O33: each operation applies the actions it emits, so a whole step from the empty trace does. -/
theorem outputsFollowTheTrace : Obligations.OutputsFollowTheTrace := by
  intro s t h hreset
  have hfollows : Follows s.beginStep t := by
    have hr := step_result h
    generalize nextEvent s = due at hr hreset
    cases hr with
    | reset => exact absurd rfl hreset
    | tick raw _ ht => exact tick_follows ht
    | enable => exact .of_silent rfl rfl
    | fire => exact .of_silent rfl rfl
    | fatal k => exact .of_silent rfl rfl
    | held => exact .of_silent rfl rfl
  obtain ⟨acts, htrace, hout⟩ := hfollows
  obtain rfl : t.trace = acts := htrace
  rw [outputs_foldl_congr (s := s.beginStep) (t := s) rfl] at hout
  exact outputs_eq_iff.1 hout

/-! ### The TICK that runs a command (R111, R148, R150) -/

/-- A TICK whose ADVANCE is due runs the word at `src_pos` on the state in which that word is consumed. -/
theorem step_of_due_tick {s : State} {raw : Bool} {rest : List Event} {w : Word} (htyped : s.typed = true)
    (hi : s.inbox = .tick raw :: rest) (hen : s.tickEnabled = true) (hon : (tickFront raw s.beginStep).led = true)
    (hdue : (tickFront raw s.beginStep).ticksRemaining.toNat ≤ 1)
    (hw : (tickFront raw s.beginStep).cfg.song[(tickFront raw s.beginStep).srcPos]? = some w) :
    step s = runWord w (((tickFront raw s.beginStep).setTicksRemaining 0).consumeWord w) := by
  rw [step_of_tick htyped hi hen, tick_of_on hon, advance_of_word hdue hw]

/-- Settles O27: the word that a due TICK runs is its decoding's `exec`, or its fault. -/
theorem stepRunsTheDecodedInstruction : Obligations.StepRunsTheDecodedInstruction := by
  intro s raw rest w htyped hi hen hon hdue hw
  obtain ⟨hcfg, -, -, -, -, -, -, hhalted, -⟩ := tickFront_frame raw s.beginStep
  obtain ⟨-, -, hrun⟩ := tickEnabled_iff.1 hen
  have hcfg : (tickFront raw s.beginStep).cfg = s.cfg := hcfg
  have hrun : (((tickFront raw s.beginStep).setTicksRemaining 0).consumeWord w).halted = false := hhalted.trans hrun
  refine ⟨fun i hd => ?_, fun e hd => ?_⟩ <;> rw [step_of_due_tick htyped hi hen hon hdue hw, ← hcfg]
  · rw [runWord_of_decode hd]
    rfl
  · have hfault : runWord w (((tickFront raw s.beginStep).setTicksRemaining 0).consumeWord w)
        = illegalCommand w (((tickFront raw s.beginStep).setTicksRemaining 0).consumeWord w) := by simp [runWord, hd]
    rw [hfault, illegalCommand_of_running hrun]
    rfl

theorem decode_of_decodeTableWord {nbits w : Nat} {i : Instr} (h : decodeTableWord nbits w = some i) :
    decode (tableWord nbits w) = .ok i := by
  unfold decodeTableWord at h
  split at h
  · cases hd : decode (tableWord nbits w) with
    | ok j => simpa [hd] using h
    | error e => simp [hd] at h
  · cases h

/-- The load gives every parameter a legal value and clears the counter, so a step can be taken (log 2). -/
theorem typed_withFetchWord (s : State) (nbits w : Nat) : (s.withFetchWord nbits w).typed = true := by
  have hthr : (if s.cfg.threshold = 0 then 30 else s.cfg.threshold) ≠ 0 := by
    split
    · decide
    · assumption
  have hperiod : 0 < (if s.cfg.tickPeriodUs = 0 then 1000 else s.cfg.tickPeriodUs) := by
    split <;> omega
  have hcfg : configLegal (s.withFetchWord nbits w).cfg = true :=
    configLegal_iff.2 ⟨hthr, List.cons_ne_nil _ _, hperiod⟩
  exact typed_iff.2 ⟨hcfg, dbCountInRange_iff.2 ((BitVec.pos_iff_ne_zero _).2 hthr)⟩

/-- The pull of SONG's last word brings the position back to 0 (R112). -/
theorem consumeWord_of_last {s : State} (h : s.srcPos + 1 = s.cfg.song.length) (w : Word) :
    s.consumeWord w = { s with srcPos := 0, trace := s.trace ++ [.pull w] } := by
  simp [State.consumeWord, h]

/-- The load keeps ASSERTED_LEVEL, so the sample it schedules matches the confirmed state. -/
theorem filterStep_withFetchWord (s : State) (nbits w : Nat) (c : BitVec 8) :
    filterStep (s.withFetchWord nbits w).cfg (confirmedLevel s.cfg s.dbState) s.dbState c
      = (s.dbState, 0, .nothing) :=
  filterStep_match (by cases s.dbState <;> rfl) c

/-- Settles O28: the loaded block is armed, its sample matches and its one word is due, so the TICK only samples, pulls
and runs it. -/
theorem loadedWordRunsNext : Obligations.LoadedWordRunsNext := by
  intro s nbits w i h
  let u := (s.withFetchWord nbits w).beginStep
  have hmatch : filterStep u.cfg (confirmedLevel s.cfg s.dbState) u.dbState u.dbCount = (s.dbState, 0, .nothing) :=
    filterStep_withFetchWord s nbits w 0
  have hevent : debounceEvent (confirmedLevel s.cfg s.dbState) u = .nothing := congrArg (fun r => r.2.2) hmatch
  have hdue : (sampled (confirmedLevel s.cfg s.dbState) u).ticksRemaining.toNat ≤ 1 := Nat.zero_le 1
  rw [step_of_tick (typed_withFetchWord s nbits w) rfl rfl, tick_of_no_press_on (s := u) (by simp [hevent]) rfl,
    advance_of_word (w := tableWord nbits w) hdue rfl, runWord_of_decode (decode_of_decodeTableWord h), sampled_eq,
    hmatch, hevent, consumeWord_of_last rfl]
  rfl

/-- A legal command runs without a fault and emits its own actions. -/
theorem exec_of_legal {i : Instr} (h : i.legal = true) (s : State) :
    ∃ t, exec i s = .next t ∧ t.halted = s.halted ∧ t.trace = s.trace ++ commandActions i := by
  obtain ⟨-, hwf⟩ := legal_iff.1 h
  cases i with
  | wait => exact ⟨_, exec_wait s, rfl, (List.append_nil _).symm⟩
  | beginNote p => exact ⟨_, exec_beginNote (wellFormed_beginNote.1 hwf) s, rfl, rfl⟩
  | endNote => exact ⟨_, exec_endNote s, rfl, rfl⟩
  | note p d =>
    obtain ⟨hp, hd⟩ := wellFormed_note.1 hwf
    exact ⟨_, exec_note hp hd s, rfl, rfl⟩
  | rest d => exact ⟨_, exec_rest (wellFormed_rest.1 hwf) s, rfl, rfl⟩
  | reserved101 x => cases h
  | reserved110 x => cases h
  | reserved111 x => cases h

/-- Settles O32: the press turns the indicator on, and the ADVANCE of the same TICK pulls and runs the word. -/
theorem pressResumesPlaybackOnTheSameTick : Obligations.PressResumesPlaybackOnTheSameTick := by
  intro s raw rest w i htyped hi hen hoff hp hdue hw hd hl
  obtain ⟨-, -, hrun⟩ := tickEnabled_iff.1 hen
  let u := ((sampled raw s.beginStep).setLed true).unmute
  have hstep : step s = exec i ((u.setTicksRemaining 0).consumeWord w) := by
    rw [step_of_tick htyped hi hen, tick_of_press_off (s := s.beginStep) hp hoff, advance_of_word (s := u) hdue hw,
      runWord_of_decode hd]
  obtain ⟨t, ht, hhalted, htrace⟩ := exec_of_legal hl ((u.setTicksRemaining 0).consumeWord w)
  obtain ⟨-, -, -, hled, hmuted, -⟩ := (exec_inv ht).frame
  exact ⟨t, hstep.trans ht, hled, hmuted, hhalted.trans hrun, htrace⟩

/-! ### A coarse command owns its duration (R111, R116) -/

theorem advances_succ {n : Nat} {s t : State} (h : advances n s = .next t) : advances (n + 1) s = advance t := by
  induction n generalizing s with
  | zero =>
    obtain rfl : s = t := by simpa [advances] using h
    simp only [advances]
    cases advance s <;> rfl
  | succ n ih =>
    rw [advances] at h ⊢
    cases ha : advance s with
    | next u =>
      simp only [ha] at h
      exact ih h
    | fault r => simp [ha] at h
    | refused r => simp [ha] at h

/-- While ticks remain, ADVANCEs only count. -/
theorem advances_of_counting (s : State) {d : Dur} {k : Nat} (h : k < d.toNat) :
    advances k (s.setTicksRemaining d) = .next (s.setTicksRemaining (BitVec.ofNat 13 (d.toNat - k))) := by
  induction k with
  | zero => simp [advances]
  | succ k ih =>
    have hlt := d.isLt
    rw [advances_succ (ih (by omega)), advance_of_counting (by simp; omega)]
    refine congrArg (fun e => Host.Outcome.next (s.setTicksRemaining e)) (BitVec.eq_of_toNat_eq ?_)
    rw [ticks_pred_toNat (by simp; omega)]
    simp
    omega

/-- Settles O20: after `d - 1` ADVANCEs one tick remains, and the next ADVANCE is due. -/
theorem coarseCommandOwnsItsDuration : Obligations.CoarseCommandOwnsItsDuration := by
  intro s d hd
  have hpos : 0 < d.toNat := Nat.pos_of_ne_zero (bitVec_ne_zero_iff_toNat.1 hd)
  refine ⟨fun k hk => advances_of_counting s hk, fun w hw => ?_⟩
  have hlast := advances_of_counting s (d := d) (k := d.toNat - 1) (by omega)
  have hone : d.toNat - (d.toNat - 1) = 1 := by omega
  have hdue := advances_succ hlast
  rw [hone, Nat.sub_add_cancel hpos, advance_of_word (s := s.setTicksRemaining 1#13) (Nat.le_refl 1) hw] at hdue
  exact hdue

/-! ### Whose turn it is, and the order of coincident events (R140, R167, R168) -/

theorem takeTick_of_not_enabled {s : State} (h : s.tickEnabled = false) (raw : Bool) : takeTick raw s = .next s := by
  simp [takeTick, h]

/-- A waiting TICK turn that is not enabled is used up (log 6). -/
theorem step_of_held_tick {s : State} {raw : Bool} {rest : List Event} (htyped : s.typed = true)
    (hi : s.inbox = .tick raw :: rest) (hoff : s.tickEnabled = false) : step s = .next s.beginStep := by
  rw [step_of_turn htyped hi]
  exact takeTick_of_not_enabled (s := s.beginStep) hoff raw

/-- Settles O30. -/
theorem turnWithoutTickHoldsTheState : Obligations.TurnWithoutTickHoldsTheState := by
  intro s raw rest htyped hi hoff
  rw [step_of_held_tick htyped hi hoff, beginStep_of_turn hi]

/-- Settles O42: with no turn waiting the enabled TICK is due, and with `src_pos` in range it answers a next state. -/
theorem enabledTickIsTakenWithAFreeSample : Obligations.EnabledTickIsTakenWithAFreeSample := by
  intro s htyped hi hen hpos
  have hn : nextEvent s = some (.tick (Config.inputLevel s.freeIndex)) := by simp [nextEvent, hi, hen]
  have hstep : step s = tick (Config.inputLevel s.freeIndex) s.beginStep := by
    rw [step_of_typed htyped, takeTurn, hn]
    exact if_pos hen
  obtain ⟨t, ht⟩ := tick_next (s := s.beginStep) (Config.inputLevel s.freeIndex) hpos
  obtain ⟨-, hevent, hacked, -⟩ := tick_frame ht
  exact ⟨t, hstep.trans ht, hstep, hacked, hevent⟩

theorem insertByPriority_perm (e : Event) (es : List Event) : (insertByPriority e es).Perm (e :: es) := by
  induction es with
  | nil => exact .rfl
  | cons x xs ih =>
    unfold insertByPriority
    split
    · exact .rfl
    · exact (ih.cons x).trans (.swap e x xs)

theorem byPriority_perm (es : List Event) : (byPriority es).Perm es := by
  induction es with
  | nil => exact .rfl
  | cons e es ih => exact (insertByPriority_perm e _).trans (ih.cons e)

theorem insertByPriority_sorted {es : List Event} (h : es.Pairwise fun a b => eventPriority a ≤ eventPriority b)
    (e : Event) : (insertByPriority e es).Pairwise fun a b => eventPriority a ≤ eventPriority b := by
  induction es with
  | nil => exact List.pairwise_singleton _ e
  | cons x xs ih =>
    obtain ⟨hx, hxs⟩ := List.pairwise_cons.1 h
    unfold insertByPriority
    split
    next hle =>
      refine List.pairwise_cons.2 ⟨fun y hy => ?_, h⟩
      obtain rfl | hy := List.mem_cons.1 hy
      · exact hle
      · exact hle.trans (hx y hy)
    next hgt =>
      refine List.pairwise_cons.2 ⟨fun y hy => ?_, ih hxs⟩
      obtain rfl | hy := mem_insertByPriority.1 hy
      · exact (Nat.lt_of_not_le hgt).le
      · exact hx y hy

theorem byPriority_sorted (es : List Event) :
    (byPriority es).Pairwise fun a b => eventPriority a ≤ eventPriority b := by
  induction es with
  | nil => exact .nil
  | cons e es ih => exact insertByPriority_sorted ih e

/-- Settles O43: insertion sorts by rank; a FATAL is taken before the coincident tick and halts the block, which then
holds the tick's turn. -/
theorem coincidentEventsAreOrdered : Obligations.CoincidentEventsAreOrdered := by
  refine ⟨⟨rfl, rfl, rfl, fun _ => rfl, rfl, rfl⟩, fun es => ⟨byPriority_perm es, byPriority_sorted es⟩,
    fun _ _ => rfl, fun s raw kind htyped hi hrun => ?_⟩
  have hfirst : (s.arrive [.tick raw, .fatal kind]).inbox = [.fatal kind, .tick raw] := by
    rw [State.arrive_inbox, hi]
    cases kind <;> rfl
  have hbegun : (s.arrive [.tick raw, .fatal kind]).beginStep.halted = false := hrun
  let t := (s.arrive [.tick raw, .fatal kind]).beginStep.haltWith (fatalCode kind) 0
  have hfatal : step (s.arrive [.tick raw, .fatal kind]) = .next t := by
    rw [step_of_turn (s := s.arrive [.tick raw, .fatal kind]) htyped hfirst, takeEvent, fatal, raiseFault_of_running hbegun]
  have hsecond : t.inbox = [.tick raw] := congrArg List.tail hfirst
  have htyped' : t.typed = true := htyped
  have hoff : t.tickEnabled = false := tickEnabled_of_halted rfl
  exact ⟨t, t.beginStep, hfatal, rfl, step_of_held_tick htyped' hsecond hoff, rfl, rfl, rfl, rfl⟩

/-! ### The observation of a run (R18) -/

theorem observe_succ_of_taken {s t : State} {e : Event} (h : step s = .next t) (he : eventTaken s = some e)
    (n : Nat) : observe (n + 1) s = (e, t.trace, t) :: observe n t := by
  simp [observe, observeStep, h, he]

theorem observe_succ_of_not_taken {s t : State} (h : step s = .next t) (he : eventTaken s = none) (n : Nat) :
    observe (n + 1) s = observe n t := by
  simp [observe, observeStep, h, he]

/-- What is observed of one step is its trace, with an event_out and a first `ack` for a TICK and no output for any
other event. -/
theorem step_observed {s t : State} {e : Event} (h : step s = .next t) (he : eventTaken s = some e) :
    ((∃ raw, e = .tick raw) → t.eventOut ≠ none ∧ ∃ later, t.trace = .ack :: later)
    ∧ ((∀ raw, e ≠ .tick raw) → t.eventOut = none ∧ t.trace = []) := by
  obtain ⟨-, -, -, ⟨raw, htaken, ht⟩ | ⟨hn, hevent, htrace⟩⟩ := step_outputs h
  · obtain rfl : e = .tick raw := by simpa [he] using htaken
    obtain ⟨-, hout, -, -, -, -, hlater⟩ := tick_frame ht
    exact ⟨fun _ => ⟨by simp [hout], hlater⟩, fun hne => absurd rfl (hne raw)⟩
  · refine ⟨?_, fun _ => ⟨hevent, htrace⟩⟩
    rintro ⟨raw, rfl⟩
    exact absurd he (hn raw)

theorem observe_mem {n : Nat} {s t : State} {e : Event} {actions : List Action} (h : (e, actions, t) ∈ observe n s) :
    actions = t.trace
    ∧ ((∃ raw, e = .tick raw) → t.eventOut ≠ none ∧ ∃ later, actions = .ack :: later)
    ∧ ((∀ raw, e ≠ .tick raw) → t.eventOut = none ∧ actions = []) := by
  induction n generalizing s with
  | zero => cases h
  | succ n ih =>
    cases hs : step s with
    | next u =>
      cases he : eventTaken s with
      | none =>
        rw [observe_succ_of_not_taken hs he] at h
        exact ih h
      | some e' =>
        rw [observe_succ_of_taken hs he] at h
        obtain heq | hmem := List.mem_cons.1 h
        · cases heq
          exact ⟨rfl, step_observed hs he⟩
        · exact ih hmem
    | fault r => simp [observe, hs] at h
    | refused r => simp [observe, hs] at h

/-- Settles O54: a step is observed exactly when `eventTaken` names it; a held TICK turn and an idle step are none. -/
theorem observationIsTheStepsTaken : Obligations.ObservationIsTheStepsTaken := by
  refine ⟨fun n s t e h he => observe_succ_of_taken h he n, fun n s e actions t => observe_mem,
    fun n s raw rest htyped hi hoff => ?_, fun n s htyped hi hoff hrun => ?_⟩
  · have hnone : eventTaken s = none := eventTaken_eq_none.2 (.inr ⟨raw, nextEvent_of_inbox hi, hoff⟩)
    rw [observe_succ_of_not_taken (step_of_held_tick htyped hi hoff) hnone, beginStep_of_turn hi]
  · have hn := nextEvent_of_no_turn hi hoff
    have hidle : step s = .next s.beginStep := by
      rw [step_of_typed htyped, takeTurn, hn]
      simp [idle, hrun]
    rw [observe_succ_of_not_taken hidle (eventTaken_eq_none.2 (.inl hn)), State.beginStep, hi, List.tail_nil, ← hi]

/-! ### What RESET leaves, and the states with no step (R39 to R41) -/

/-- Settles O38: every field is the boot value under the standard configuration. -/
theorem resetStateHoldsTheResetValues : Obligations.ResetStateHoldsTheResetValues := by
  have hsong : State.reset.cfg.song ≠ [] := List.cons_ne_nil _ _
  have htyped : State.reset.typed = true := typed_of_inv (boot_inv rfl []) rfl
  exact ⟨rfl, rfl, rfl, rfl, rfl, rfl, rfl, rfl, rfl, rfl, rfl, rfl, rfl, rfl, rfl, rfl, rfl, hsong, htyped, rfl, rfl,
    rfl, rfl⟩

/-- Settles O55: the turn is `installReset` on the begun step, which writes neither the configuration nor the
schedule. -/
theorem resetKeepsConfigurationAndTurns : Obligations.ResetKeepsConfigurationAndTurns := by
  intro s rest htyped hi
  exact ⟨s.beginStep.installReset, step_of_turn htyped hi, rfl, by simp [hi], rfl, rfl⟩

/-- Settles O57: a step answers a next state only from a typed state. -/
theorem illegalConfigurationHasNoRun : Obligations.IllegalConfigurationHasNoRun := by
  refine ⟨fun s hbad => ?_, fun s hcount t h => ?_⟩
  · have hcfg : configLegal s.cfg = false := by
      rw [← Bool.not_eq_true, configLegal_iff]
      rintro ⟨hthr, hsong, hperiod⟩
      obtain h | h | h := hbad
      · exact hthr h
      · exact hsong h
      · omega
    simp [step, hcfg]
  · obtain ⟨htyped, -⟩ := step_cases h
    have hlt : s.dbCount < s.cfg.threshold := dbCountInRange_iff.1 (typed_iff.1 htyped).2
    exact absurd hlt (by rw [BitVec.lt_def]; omega)

end Sys2Proof.Machine

/-! ### The assembler's lines and streams (R77, R78) -/

namespace Sys2Proof.Machine

theorem asmPitch_eq_some {p : Nat} {q : Pitch} : asmPitch p = some q ↔ q.toNat = p ∧ q ≠ 0 := by
  have hq := q.isLt
  rw [bitVec_ne_zero_iff_toNat, asmPitch]
  split
  next h =>
    rw [Option.some_inj, ← BitVec.toNat_inj, BitVec.toNat_ofNat]
    omega
  next h => exact ⟨fun hn => (by cases hn), fun hp => by omega⟩

theorem asmDur_eq_some {n : Nat} {d : Dur} : asmDur n = some d ↔ d.toNat = n ∧ d ≠ 0 := by
  have hd := d.isLt
  rw [bitVec_ne_zero_iff_toNat, asmDur]
  split
  next h =>
    rw [Option.some_inj, ← BitVec.toNat_inj, BitVec.toNat_ofNat]
    omega
  next h => exact ⟨fun hn => (by cases hn), fun hp => by omega⟩

theorem asmPitch_of_range {p : Nat} (h : 1 ≤ p ∧ p ≤ 65535) : ∃ q, asmPitch p = some q := ⟨_, if_pos h⟩

theorem asmPitch_of_not_range {p : Nat} (h : ¬ (1 ≤ p ∧ p ≤ 65535)) : asmPitch p = none := if_neg h

theorem asmDur_of_range {d : Nat} (h : 1 ≤ d ∧ d ≤ 8191) : ∃ e, asmDur d = some e := ⟨_, if_pos h⟩

theorem asmDur_of_not_range {d : Nat} (h : ¬ (1 ≤ d ∧ d ≤ 8191)) : asmDur d = none := if_neg h

/-! #### Each line's words, for operands in range -/

theorem assembleLine_beginNote_eq_some {p : Nat} {ws : List Word} :
    assembleLine (.beginNote p) = some ws ↔ ∃ q, asmPitch p = some q ∧ [encode (.beginNote q)] = ws := by
  rw [assembleLine, asmBeginNote]
  cases asmPitch p <;> simp

theorem assembleLine_note_eq_some {p d : Nat} {ws : List Word} :
    assembleLine (.note p d) = some ws
      ↔ ∃ q e, asmPitch p = some q ∧ asmDur d = some e ∧ [encode (.note q e)] = ws := by
  rw [assembleLine, asmNote]
  cases asmPitch p <;> cases asmDur d <;> simp

theorem assembleLine_rest_eq_some {d : Nat} {ws : List Word} :
    assembleLine (.rest d) = some ws ↔ ∃ e, asmDur d = some e ∧ [encode (.rest e)] = ws := by
  rw [assembleLine, asmRest]
  cases asmDur d <;> simp

theorem assembleLine_fnote_eq_some {p d : Nat} {ws : List Word} :
    assembleLine (.fnote p d) = some ws
      ↔ d ≠ 0 ∧ ∃ q, asmPitch p = some q ∧ encode (.beginNote q) :: waits (d - 1) = ws := by
  rw [assembleLine, asmFnote, asmBeginNote]
  by_cases hd : d = 0
  · simp [hd]
  · cases asmPitch p <;> simp [hd]

theorem assembleLine_frest_eq_some {d : Nat} {ws : List Word} :
    assembleLine (.frest d) = some ws ↔ d ≠ 0 ∧ encode .endNote :: waits (d - 1) = ws := by
  rw [assembleLine, asmFrest]
  by_cases hd : d = 0 <;> simp [hd]

theorem assembleLine_waitn_eq_some {n : Nat} {ws : List Word} :
    assembleLine (.waitn n) = some ws ↔ waits n = ws := by
  rw [assembleLine, Option.some_inj]

theorem assemble_cons_eq_some {l : AsmLine} {ls : List AsmLine} {ws : List Word} :
    assemble (l :: ls) = some ws
      ↔ ∃ xs ys, assembleLine l = some xs ∧ assemble ls = some ys ∧ xs ++ ys = ws := by
  rw [assemble]
  cases assembleLine l <;> cases assemble ls <;> simp

/-- Settles O52: a line's word is the encoding of its instruction, whose number is known; an operand out of range has no
value. -/
theorem assembledLinesGiveTheirWords : Obligations.AssembledLinesGiveTheirWords := by
  refine ⟨fun p => ⟨fun h => ?_, fun h => ?_⟩, fun p d => ⟨fun h => ?_, fun h => ?_⟩,
    fun d => ⟨fun h => ?_, fun h => ?_⟩, fun v h => ?_, ⟨_, rfl, rfl⟩, ⟨_, rfl, rfl⟩⟩
  · obtain ⟨q, hq⟩ := asmPitch_of_range h
    obtain ⟨hp, -⟩ := asmPitch_eq_some.1 hq
    exact ⟨_, assembleLine_beginNote_eq_some.2 ⟨q, hq, rfl⟩, by rw [encode_beginNote_toNat, hp]⟩
  · simp [assembleLine, asmBeginNote, asmPitch_of_not_range h]
  · obtain ⟨h1, h2, h3, h4⟩ := h
    obtain ⟨q, hq⟩ := asmPitch_of_range ⟨h1, h2⟩
    obtain ⟨e, he⟩ := asmDur_of_range ⟨h3, h4⟩
    obtain ⟨hp, -⟩ := asmPitch_eq_some.1 hq
    obtain ⟨hd, -⟩ := asmDur_eq_some.1 he
    exact ⟨_, assembleLine_note_eq_some.2 ⟨q, e, hq, he, rfl⟩, by rw [encode_note_toNat, hp, hd]⟩
  · by_cases hp : 1 ≤ p ∧ p ≤ 65535
    · have hd : asmDur d = none := asmDur_of_not_range fun hd => h ⟨hp.1, hp.2, hd⟩
      simp [assembleLine, asmNote, hd]
    · simp [assembleLine, asmNote, asmPitch_of_not_range hp]
  · obtain ⟨e, he⟩ := asmDur_of_range h
    obtain ⟨hd, -⟩ := asmDur_eq_some.1 he
    exact ⟨_, assembleLine_rest_eq_some.2 ⟨e, he, rfl⟩, by rw [encode_rest_toNat, hd]⟩
  · simp [assembleLine, asmRest, asmDur_of_not_range h]
  · exact ⟨BitVec.ofNat 32 v, if_pos h, by rw [BitVec.toNat_ofNat, Nat.mod_eq_of_lt h]⟩

theorem assemble_append {ls ms : List AsmLine} {ws vs : List Word} (hl : assemble ls = some ws)
    (hm : assemble ms = some vs) : assemble (ls ++ ms) = some (ws ++ vs) := by
  induction ls generalizing ws with
  | nil =>
    obtain rfl : [] = ws := Option.some_inj.1 hl
    exact hm
  | cons l ls ih =>
    obtain ⟨xs, ys, hx, hy, rfl⟩ := assemble_cons_eq_some.1 hl
    exact assemble_cons_eq_some.2 ⟨xs, ys ++ vs, hx, ih hy, (List.append_assoc xs ys vs).symm⟩

/-- Settles O58: the words of WAIT and END_NOTE are those of R72, and streams are put together line by line. -/
theorem pseudoInstructionsExpand : Obligations.PseudoInstructionsExpand := by
  refine ⟨fun p d hp hd => ?_, fun p d h => ?_, fun d hd => ?_, rfl, fun n => rfl, fun ls ms ws vs => assemble_append⟩
  · obtain ⟨q, hq⟩ := asmPitch_of_range hp
    obtain ⟨hn, -⟩ := asmPitch_eq_some.1 hq
    exact ⟨encode (.beginNote q), assembleLine_fnote_eq_some.2 ⟨by omega, q, hq, rfl⟩,
      by rw [encode_beginNote_toNat, hn]⟩
  · obtain hp | rfl := h
    · simp [assembleLine, asmFnote, asmBeginNote, asmPitch_of_not_range hp]
    · rfl
  · exact assembleLine_frest_eq_some.2 ⟨by omega, rfl⟩

/-! #### The ticks that a stream's commands own (R123) -/

theorem ticksOwned_note {p : Pitch} {d : Dur} (hp : p ≠ 0) (hd : d ≠ 0) :
    ticksOwned (encode (.note p d)) = d.toNat := by
  simp [ticksOwned, decode_encode (wellFormed_note.2 ⟨hp, hd⟩)]

theorem ticksOwned_rest {d : Dur} (hd : d ≠ 0) : ticksOwned (encode (.rest d)) = d.toNat := by
  simp [ticksOwned, decode_encode (wellFormed_rest.2 hd)]

theorem ticksOwned_beginNote {p : Pitch} (hp : p ≠ 0) : ticksOwned (encode (.beginNote p)) = 1 := by
  simp [ticksOwned, decode_encode (wellFormed_beginNote.2 hp)]

theorem ticksOwned_wait : ticksOwned (encode .wait) = 1 := rfl

theorem ticksOwned_endNote : ticksOwned (encode .endNote) = 1 := rfl

theorem songTicks_waits (n : Nat) : songTicks (waits n) = n := by
  induction n with
  | zero => rfl
  | succ n ih =>
    have hcons : waits (n + 1) = encode .wait :: waits n := rfl
    rw [hcons, songTicks, ticksOwned_wait, ih, Nat.add_comm]

/-! #### Lines without `.word` give legal words (R73) -/

theorem legalWord_encode_of_wellFormed {i : Instr} (hc : i.isCommand = true) (hwf : i.wellFormed = true) :
    legalWord (encode i) = true :=
  (legalWord_encode i).trans (legal_iff.2 ⟨hc, hwf⟩)

theorem legalWord_of_mem_waits {n : Nat} {w : Word} (h : w ∈ waits n) : legalWord w = true := by
  obtain rfl : w = encode .wait := List.eq_of_mem_replicate h
  exact legalWord_encode_of_wellFormed rfl rfl

theorem assembleLine_legal {l : AsmLine} {ws : List Word} (h : assembleLine l = some ws) (hl : ∀ v, l ≠ .word v) :
    ∀ w ∈ ws, legalWord w = true := by
  cases l with
  | word v => exact absurd rfl (hl v)
  | wait =>
    obtain rfl : [encode .wait] = ws := Option.some_inj.1 h
    simpa using legalWord_encode_of_wellFormed (i := .wait) rfl rfl
  | endNote =>
    obtain rfl : [encode .endNote] = ws := Option.some_inj.1 h
    simpa using legalWord_encode_of_wellFormed (i := .endNote) rfl rfl
  | beginNote p =>
    obtain ⟨q, hq, rfl⟩ := assembleLine_beginNote_eq_some.1 h
    obtain ⟨-, hp⟩ := asmPitch_eq_some.1 hq
    simpa using legalWord_encode_of_wellFormed (i := .beginNote q) rfl (wellFormed_beginNote.2 hp)
  | note p d =>
    obtain ⟨q, e, hq, he, rfl⟩ := assembleLine_note_eq_some.1 h
    obtain ⟨-, hp⟩ := asmPitch_eq_some.1 hq
    obtain ⟨-, hd⟩ := asmDur_eq_some.1 he
    simpa using legalWord_encode_of_wellFormed (i := .note q e) rfl (wellFormed_note.2 ⟨hp, hd⟩)
  | rest d =>
    obtain ⟨e, he, rfl⟩ := assembleLine_rest_eq_some.1 h
    obtain ⟨-, hd⟩ := asmDur_eq_some.1 he
    simpa using legalWord_encode_of_wellFormed (i := .rest e) rfl (wellFormed_rest.2 hd)
  | waitn n =>
    obtain rfl := assembleLine_waitn_eq_some.1 h
    exact fun w => legalWord_of_mem_waits
  | fnote p d =>
    obtain ⟨-, q, hq, rfl⟩ := assembleLine_fnote_eq_some.1 h
    obtain ⟨-, hp⟩ := asmPitch_eq_some.1 hq
    exact List.forall_mem_cons.2 ⟨legalWord_encode_of_wellFormed rfl (wellFormed_beginNote.2 hp),
      fun w => legalWord_of_mem_waits⟩
  | frest d =>
    obtain ⟨-, rfl⟩ := assembleLine_frest_eq_some.1 h
    exact List.forall_mem_cons.2 ⟨legalWord_encode_of_wellFormed rfl rfl, fun w => legalWord_of_mem_waits⟩

theorem assemble_legal {lines : List AsmLine} {words : List Word} (h : assemble lines = some words)
    (hl : ∀ v, .word v ∉ lines) : ∀ w ∈ words, legalWord w = true := by
  induction lines generalizing words with
  | nil =>
    obtain rfl : [] = words := Option.some_inj.1 h
    simp
  | cons l ls ih =>
    obtain ⟨xs, ys, hx, hy, rfl⟩ := assemble_cons_eq_some.1 h
    intro w hw
    obtain hw | hw := List.mem_append.1 hw
    · exact assembleLine_legal hx (fun v hv => hl v (by simp [hv])) w hw
    · exact ih hy (fun v hv => hl v (List.mem_cons_of_mem l hv)) w hw

/-- Settles O53: line by line, the words are encodings of commands in range, and own the ticks of their operands. -/
theorem assembledStreamsAreLegal : Obligations.AssembledStreamsAreLegal := by
  refine ⟨fun lines words => assemble_legal, fun p d ws h => ?_, fun d ws h => ?_, fun p d ws h => ?_, fun d ws h => ?_,
    fun n ws h => ?_⟩
  · obtain ⟨hd, q, hq, rfl⟩ := assembleLine_fnote_eq_some.1 h
    obtain ⟨-, hp⟩ := asmPitch_eq_some.1 hq
    rw [songTicks, ticksOwned_beginNote hp, songTicks_waits]
    omega
  · obtain ⟨hd, rfl⟩ := assembleLine_frest_eq_some.1 h
    rw [songTicks, ticksOwned_endNote, songTicks_waits]
    omega
  · obtain ⟨q, e, hq, he, rfl⟩ := assembleLine_note_eq_some.1 h
    obtain ⟨-, hp⟩ := asmPitch_eq_some.1 hq
    obtain ⟨hn, hd⟩ := asmDur_eq_some.1 he
    rw [songTicks, ticksOwned_note hp hd, songTicks, hn, Nat.add_zero]
  · obtain ⟨e, he, rfl⟩ := assembleLine_rest_eq_some.1 h
    obtain ⟨hn, hd⟩ := asmDur_eq_some.1 he
    rw [songTicks, ticksOwned_rest hd, songTicks, hn, Nat.add_zero]
  · obtain rfl := assembleLine_waitn_eq_some.1 h
    exact songTicks_waits n

end Sys2Proof.Machine

/-! ### Playback as a stream of beats (R111, R123) -/

namespace Sys2Proof.Machine

/-- What one armed tick of playback does: whether it raises the fault of an illegal word, and its tone actions. -/
abbrev Beat := Bool × List Action

/-- A tick that only counts. -/
def quietBeat : Beat := (false, [])

/-- The tone actions of a pulled word: none for one that is not decoded. -/
def wordActions (w : Word) : List Action :=
  match decode w with
  | .ok i => commandActions i
  | .error _ => []

/-- The beats of one word: that of its pull, and a quiet one for each further tick it owns. -/
def wordBeats (w : Word) : List Beat :=
  (!legalWord w, wordActions w) :: List.replicate (ticksOwned w - 1) quietBeat

/-- The beats of a list of words, one word after the other. -/
def songBeats (song : List Word) : List Beat := song.flatMap wordBeats

/-- A list of beats over and over. -/
def repeated (beats : List Beat) : Stream' Beat := fun k => beats.getD (k % beats.length) quietBeat

/-- The beats of the armed ticks to come: those left of the running command, those of SONG from `src_pos` on, and then
SONG again and again. -/
def upcoming (s : State) : Stream' Beat :=
  List.replicate (s.ticksRemaining.toNat - 1) quietBeat ++ songBeats (s.cfg.song.drop s.srcPos)
    ++ₛ repeated (songBeats s.cfg.song)

theorem ticksOwned_pos (w : Word) : 0 < ticksOwned w := by
  unfold ticksOwned
  cases h : decode w with
  | error e => exact Nat.one_pos
  | ok i =>
    obtain ⟨-, hwf⟩ := eq_encode_of_decode h
    cases i with
    | note p d =>
      obtain ⟨-, hd⟩ := wellFormed_note.1 hwf
      exact Nat.pos_of_ne_zero (bitVec_ne_zero_iff_toNat.1 hd)
    | rest d => exact Nat.pos_of_ne_zero (bitVec_ne_zero_iff_toNat.1 (wellFormed_rest.1 hwf))
    | _ => exact Nat.one_pos

theorem length_wordBeats (w : Word) : (wordBeats w).length = ticksOwned w := by
  simp [wordBeats, Nat.sub_add_cancel (ticksOwned_pos w)]

/-- SONG has as many beats as its commands own ticks. -/
theorem length_songBeats (song : List Word) : (songBeats song).length = songTicks song := by
  induction song with
  | nil => rfl
  | cons w ws ih =>
    have hcons : songBeats (w :: ws) = wordBeats w ++ songBeats ws := rfl
    rw [hcons, List.length_append, length_wordBeats, ih, songTicks]

theorem songBeats_eq_nil_iff {song : List Word} : songBeats song = [] ↔ song = [] := by
  cases song <;> simp [songBeats, wordBeats]

theorem append_repeated (beats : List Beat) : beats ++ₛ repeated beats = repeated beats := by
  refine Stream'.ext fun n => ?_
  by_cases h : n < beats.length
  · rw [Stream'.get_append_left _ _ _ h]
    simp [Stream'.get, repeated, Nat.mod_eq_of_lt h, h]
  · obtain ⟨m, rfl⟩ := Nat.exists_eq_add_of_le (Nat.le_of_not_lt h)
    rw [Stream'.get_append_right]
    simp [Stream'.get, repeated]

theorem repeated_add_length (beats : List Beat) (k : Nat) :
    (repeated beats).get (k + beats.length) = (repeated beats).get k := by
  simp [Stream'.get, repeated]

/-- At the start of the cycle, with no tick left, the beats to come are SONG's. -/
theorem upcoming_of_start {s : State} (hpos : s.srcPos = 0) (hticks : s.ticksRemaining = 0) :
    upcoming s = repeated (songBeats s.cfg.song) := by
  rw [upcoming, hpos, hticks]
  exact append_repeated _

/-- The position wraps where SONG's beats begin again. -/
theorem songBeats_drop_wrap {song : List Word} {pos : Nat} (h : pos < song.length) :
    songBeats (song.drop ((pos + 1) % song.length)) ++ₛ repeated (songBeats song)
      = songBeats (song.drop (pos + 1)) ++ₛ repeated (songBeats song) := by
  by_cases hlast : pos + 1 = song.length
  · rw [hlast, Nat.mod_self, List.drop_zero, List.drop_length, append_repeated]
    rfl
  · rw [Nat.mod_eq_of_lt (by omega)]

/-- An illegal word has no tone action and owns the one tick of its pull. -/
theorem beat_of_illegal {w : Word} (h : legalWord w = false) : wordActions w = [] ∧ ticksOwned w = 1 := by
  unfold wordActions ticksOwned
  cases hd : decode w with
  | error e => exact ⟨rfl, rfl⟩
  | ok i =>
    obtain ⟨-, hwf⟩ := eq_encode_of_decode hd
    rw [legalWord_of_decode hd, Instr.legal, hwf, Bool.and_true] at h
    cases i with
    | reserved101 x => exact ⟨rfl, rfl⟩
    | reserved110 x => exact ⟨rfl, rfl⟩
    | reserved111 x => exact ⟨rfl, rfl⟩
    | _ => cases h

/-- A legal command leaves the ticks it owns, but for the one it ran in. -/
theorem exec_ticksRemaining {i : Instr} {s t : State} (hl : i.legal = true) (h : exec i s = .next t)
    (hticks : s.ticksRemaining = 0) : t.ticksRemaining.toNat - 1 = ticksOwned (encode i) - 1 := by
  obtain ⟨-, hwf⟩ := legal_iff.1 hl
  cases i with
  | wait => cases h; simp [hticks, ticksOwned_wait]
  | beginNote p =>
    have hp := wellFormed_beginNote.1 hwf
    rw [exec_beginNote hp] at h
    cases h
    simp [hticks, ticksOwned_beginNote hp]
  | endNote => cases h; simp [hticks, ticksOwned_endNote]
  | note p d =>
    obtain ⟨hp, hd⟩ := wellFormed_note.1 hwf
    rw [exec_note hp hd] at h
    cases h
    simp [ticksOwned_note hp hd]
  | rest d =>
    have hd := wellFormed_rest.1 hwf
    rw [exec_rest hd] at h
    cases h
    simp [ticksOwned_rest hd]
  | reserved101 x => cases hl
  | reserved110 x => cases hl
  | reserved111 x => cases hl

/-- Running a pulled word is the first of its beats, and leaves the others to come. -/
theorem runWord_beat {w : Word} {s t : State} (h : runWord w s = .next t) (hrun : s.halted = false)
    (hticks : s.ticksRemaining = 0) :
    t.halted = !legalWord w ∧ t.trace = s.trace ++ wordActions w
      ∧ t.ticksRemaining.toNat - 1 = ticksOwned w - 1 := by
  cases hl : legalWord w with
  | false =>
    obtain ⟨hactions, howned⟩ := beat_of_illegal hl
    rw [runWord_of_illegal hl, illegalCommand_of_running hrun] at h
    cases h
    simp [hactions, howned, hticks]
  | true =>
    obtain ⟨i, hi, hlegal⟩ := (legalWord_iff_decode_legal w).1 hl
    have hw : wordActions w = commandActions i := by simp [wordActions, hi]
    rw [runWord_of_decode hi] at h
    obtain ⟨t', ht', hhalted, htrace⟩ := exec_of_legal hlegal s
    obtain rfl : t = t' := by simpa [h] using ht'
    refine ⟨hhalted.trans hrun, by rw [htrace, hw], ?_⟩
    obtain ⟨rfl, -⟩ := eq_encode_of_decode hi
    exact exec_ticksRemaining hlegal h hticks

theorem toneActions_append {s t : State} {acts : List Action} (h : t.trace = s.trace ++ acts) :
    toneActions t = toneActions s ++ acts.filter isToneAction := by
  rw [toneActions, h, List.filter_append, toneActions]

theorem filter_wordActions (w : Word) : (wordActions w).filter isToneAction = wordActions w := by
  unfold wordActions
  cases decode w with
  | error e => rfl
  | ok i => cases i <;> rfl

/-- ADVANCE plays the first of the beats to come, and leaves the rest. -/
theorem advance_beat {s t : State} (h : advance s = .next t) (hrun : s.halted = false) :
    ∃ b : Beat, upcoming s = Stream'.cons b (upcoming t) ∧ t.halted = b.1 ∧ toneActions t = toneActions s ++ b.2 := by
  obtain ⟨hcount, rfl⟩ | ⟨hdue, w, hw, hr⟩ := advance_cases h
  · refine ⟨quietBeat, ?_, hrun, (List.append_nil _).symm⟩
    have hpred := ticks_pred_toNat (d := s.ticksRemaining) (by omega)
    have hsucc : s.ticksRemaining.toNat - 1 = (s.ticksRemaining - 1).toNat - 1 + 1 := by omega
    rw [upcoming, hsucc, List.replicate_succ, List.cons_append, Stream'.cons_append_stream]
    rfl
  · obtain ⟨hhalted, htrace, hticks⟩ := runWord_beat hr hrun rfl
    obtain ⟨hcfg, -, -, -, -, -, -, hpos, -⟩ := (runWord_inv hr).frame
    have hcfg : t.cfg = s.cfg := hcfg
    have hpos : t.srcPos = (s.srcPos + 1) % s.cfg.song.length := hpos
    obtain ⟨hlt, hat⟩ := List.getElem?_eq_some_iff.1 hw
    refine ⟨(!legalWord w, wordActions w), ?_, hhalted, ?_⟩
    · have hnow : s.ticksRemaining.toNat - 1 = 0 := by omega
      have hdrop : s.cfg.song.drop s.srcPos = w :: s.cfg.song.drop (s.srcPos + 1) := by
        rw [List.drop_eq_getElem_cons hlt, hat]
      have hbeats : songBeats (w :: s.cfg.song.drop (s.srcPos + 1))
          = wordBeats w ++ songBeats (s.cfg.song.drop (s.srcPos + 1)) := rfl
      rw [upcoming, upcoming, hcfg, hpos, hticks, hnow, hdrop, hbeats, wordBeats, List.replicate_zero, List.nil_append,
        List.cons_append, Stream'.cons_append_stream, Stream'.append_append_stream, Stream'.append_append_stream,
        songBeats_drop_wrap hlt]
    · rw [toneActions_append htrace, filter_wordActions, toneActions_append (s := s) (acts := [.pull w]) rfl]
      simp [isToneAction]

/-! ### One firing and the dispatcher's turn after it -/

/-- The state in which the dispatcher takes its turn after a firing. -/
def State.fired (s : State) : State :=
  { s with tickPending := true, trace := [], eventOut := none, inbox := [], freeIndex := s.freeIndex + 2 }

theorem fireAndTick_of_typed {s : State} (h : s.typed = true) (raw : Bool) :
    fireAndTick raw s = takeTick raw s.fired := by
  have hfire : step (s.withInbox [.tickFire]) = .next (s.withInbox [.tickFire]).beginStep.setPending :=
    step_of_turn (s := s.withInbox [.tickFire]) h rfl
  have hfired : ((s.withInbox [.tickFire]).beginStep.setPending.withInbox [.tick raw]).beginStep = s.fired := by
    simp only [State.withInbox, State.beginStep, State.setPending, State.fired, List.tail_cons]
  simp only [fireAndTick, hfire]
  rw [step_of_turn (s := (s.withInbox [.tickFire]).beginStep.setPending.withInbox [.tick raw]) h rfl, hfired, takeEvent]

theorem fired_tickEnabled (s : State) : s.fired.tickEnabled = (s.ticksEnabled && !s.halted) := by
  simp [State.tickEnabled, State.fired]

/-- The states from which playback can go on: a step can be taken, and SONG has a word at `src_pos`. -/
structure State.Playable (s : State) : Prop where
  typed : s.typed = true
  pos : s.srcPos < s.cfg.song.length

theorem tick_playable {raw : Bool} {s t : State} (h : tick raw s = .next t) (hs : s.Playable) (htrace : s.trace = []) :
    t.Playable := by
  obtain ⟨hcfg, -⟩ := tick_frame h
  obtain ⟨-, hcount⟩ := tick_filter h
  obtain ⟨hlegal, hrange⟩ := typed_iff.1 hs.typed
  have hlt := filterStep_count_lt (dbCountInRange_iff.1 hrange) raw s.dbState
  have hlen : 0 < s.cfg.song.length := Nat.zero_lt_of_lt hs.pos
  constructor
  · rw [typed_iff, dbCountInRange_iff, hcfg, hcount]
    exact ⟨hlegal, hlt⟩
  · rw [hcfg]
    have hmove := tick_source h htrace
    generalize sourceActions t = acts at hmove
    cases hmove with
    | held hp => rw [hp]; exact hs.pos
    | pulled w _ hp => rw [hp]; exact Nat.mod_lt _ hlen
    | restarted hp => rw [hp]; exact hlen

/-- A firing and a turn always answer a state: that of the TICK when it is enabled, else the fired one (log 6). -/
theorem fireAndTick_next {s : State} (h : s.Playable) (raw : Bool) :
    ∃ t, fireAndTick raw s = .next t ∧ t.Playable
      ∧ ((s.fired.tickEnabled = true ∧ tick raw s.fired = .next t)
        ∨ (s.fired.tickEnabled = false ∧ t = s.fired)) := by
  have hfired : s.fired.Playable := ⟨h.typed, h.pos⟩
  rw [fireAndTick_of_typed h.typed, takeTick]
  cases hen : s.fired.tickEnabled with
  | true =>
    obtain ⟨t, ht⟩ := tick_next raw hfired.pos
    exact ⟨t, ht, tick_playable ht hfired rfl, .inl ⟨rfl, ht⟩⟩
  | false => exact ⟨s.fired, rfl, hfired, .inr ⟨rfl, rfl⟩⟩

theorem tickStates_cons {raw : Bool} {raws : List Bool} {s t : State} {states : List State}
    (h : fireAndTick raw s = .next t) (hrest : tickStates raws t = some states) :
    tickStates (raw :: raws) s = some (t :: states) := by
  simp [tickStates, h, hrest]

/-! ### The period (R123) -/

/-- A block that plays a legal SONG: enabled, not halted, and every word of SONG legal. -/
structure State.PlaysLegalSong (s : State) : Prop where
  playable : s.Playable
  ticksEnabled : s.ticksEnabled = true
  running : s.halted = false
  legal : ∀ w ∈ s.cfg.song, legalWord w = true

/-- A TICK halts only by an illegal word of SONG. -/
theorem tick_running_of_legal {raw : Bool} {s t : State} (h : tick raw s = .next t) (hrun : s.halted = false)
    (htrace : s.trace = []) (hlegal : ∀ w ∈ s.cfg.song, legalWord w = true) : t.halted = false := by
  rw [← Bool.not_eq_true]
  intro hhalt
  obtain ⟨-, w, hl, rfl⟩ := tick_halts h hrun hhalt
  have hsong := (tick_source h htrace).song_of_pull_mem (w := w) (pull_mem_trace_iff.1 (by simp))
  simp [hlegal w (List.mem_of_getElem? hsong)] at hl

theorem fireAndTick_playsLegalSong {s : State} (h : s.PlaysLegalSong) (raw : Bool) :
    ∃ t, fireAndTick raw s = .next t ∧ tick raw s.fired = .next t ∧ t.PlaysLegalSong := by
  obtain ⟨t, hnext, hplay, ⟨-, ht⟩ | ⟨hoff, -⟩⟩ := fireAndTick_next h.playable raw
  · obtain ⟨hcfg, -, -, henabled, -⟩ := tick_frame ht
    have hcfg : t.cfg = s.cfg := hcfg
    refine ⟨t, hnext, ht, hplay, henabled.trans h.ticksEnabled, tick_running_of_legal ht h.running rfl h.legal, ?_⟩
    rw [hcfg]
    exact h.legal
  · simp [fired_tickEnabled, h.ticksEnabled, h.running] at hoff

/-- A tick that starts and ends armed has no press, so it plays the first of the beats to come. -/
theorem armed_tick_beat {raw : Bool} {s t : State} (h : tick raw s.fired = .next t) (hrun : s.halted = false)
    (hon : s.led = true) (hstays : t.led = true) :
    ∃ b : Beat, upcoming s = Stream'.cons b (upcoming t) ∧ toneActions t = b.2 := by
  have hon : s.fired.led = true := hon
  have hnopress : debounceEvent raw s.fired ≠ .pressed := fun hp => by
    have hoff : (tickFront raw s.fired).led = false := by simp [tickFront_led, hp, hon]
    rw [tick_of_off hoff] at h
    cases h
    simp [hoff] at hstays
  rw [tick_of_no_press_on hnopress hon] at h
  obtain ⟨b, hb, -, htones⟩ := advance_beat h hrun
  exact ⟨b, hb, htones⟩

/-- While the run stays armed, the tone actions of its ticks are those of the beats to come, one by one. -/
theorem tickStates_playsLegalSong {s : State} (h : s.PlaysLegalSong) (raws : List Bool) :
    ∃ states, tickStates raws s = some states ∧ (∀ t ∈ states, t.halted = false)
      ∧ (s.led = true → (∀ t ∈ states, t.led = true) →
        ∀ (k : Nat) (a : State), states[k]? = some a → toneActions a = ((upcoming s).get k).2) := by
  induction raws generalizing s with
  | nil => exact ⟨[], rfl, by simp, by simp⟩
  | cons raw raws ih =>
    obtain ⟨t, hnext, ht, hplays⟩ := fireAndTick_playsLegalSong h raw
    obtain ⟨states, hrest, hrunning, hbeats⟩ := ih hplays
    refine ⟨t :: states, tickStates_cons hnext hrest, List.forall_mem_cons.2 ⟨hplays.running, hrunning⟩,
      fun hon hall k a hk => ?_⟩
    obtain ⟨hton, hall⟩ := List.forall_mem_cons.1 hall
    obtain ⟨b, hb, htones⟩ := armed_tick_beat ht h.running hon hton
    rw [hb]
    cases k with
    | zero =>
      obtain rfl : t = a := by simpa using hk
      exact htones
    | succ k => exact hbeats hton hall k a hk

/-- Settles O25: from the start of the cycle the beats to come are SONG's over and over, and SONG has as many as its
commands own ticks. -/
theorem toneActionsRepeatWithTheSongPeriod : Obligations.ToneActionsRepeatWithTheSongPeriod := by
  intro s raws htyped henabled hrun hon hpos hticks hlegal
  have hsong : s.cfg.song ≠ [] := (configLegal_iff.1 (typed_iff.1 htyped).1).2.1
  have hplayable : s.Playable := ⟨htyped, by rw [hpos]; exact List.length_pos_iff.2 hsong⟩
  obtain ⟨states, hstates, hrunning, hbeats⟩ :=
    tickStates_playsLegalSong ⟨hplayable, henabled, hrun, hlegal⟩ raws
  refine ⟨states, hstates, hrunning, fun hall k a b ha hb => ?_⟩
  rw [hbeats hon hall _ a ha, hbeats hon hall _ b hb, upcoming_of_start hpos hticks, ← length_songBeats,
    repeated_add_length]

/-! ### The two encodings sound alike (R76, R78) -/

/-- Two blocks that differ in how their SONG is written and in where they are in it, but have the same beats to come. -/
structure SoundsLike (a b : State) : Prop where
  cfg : b.cfg = { a.cfg with song := b.cfg.song }
  dbState : b.dbState = a.dbState
  dbCount : b.dbCount = a.dbCount
  led : b.led = a.led
  ticksEnabled : b.ticksEnabled = a.ticksEnabled
  halted : b.halted = a.halted
  beats : songBeats b.cfg.song = songBeats a.cfg.song
  ahead : upcoming b = upcoming a
  tones : toneActions b = toneActions a

theorem SoundsLike.filterStep_eq {a b : State} (h : SoundsLike a b) (raw : Bool) :
    filterStep b.cfg raw b.dbState b.dbCount = filterStep a.cfg raw a.dbState a.dbCount := by
  have hlevel (song : List Word) (d : DbState) :
      confirmedLevel { a.cfg with song := song } d = confirmedLevel a.cfg d := by
    cases d <;> rfl
  rw [h.cfg, h.dbState, h.dbCount, filterStep, hlevel, filterStep]

/-- The same actions on both sides leave the same tone actions. -/
theorem SoundsLike.tones_append {a b a' b' : State} (h : SoundsLike a b) {acts : List Action}
    (ha : a'.trace = a.trace ++ acts) (hb : b'.trace = b.trace ++ acts) : toneActions b' = toneActions a' := by
  rw [toneActions_append ha, toneActions_append hb, h.tones]

theorem SoundsLike.of_setLed {a b : State} (h : SoundsLike a b) (x : Bool) : SoundsLike (a.setLed x) (b.setLed x) :=
  { h with led := rfl, tones := h.tones_append rfl rfl }

theorem SoundsLike.of_silence {a b : State} (h : SoundsLike a b) : SoundsLike a.silence b.silence :=
  { h with tones := h.tones_append rfl rfl }

theorem SoundsLike.of_mute {a b : State} (h : SoundsLike a b) : SoundsLike a.mute b.mute :=
  { h with tones := h.tones_append rfl rfl }

theorem SoundsLike.of_unmute {a b : State} (h : SoundsLike a b) : SoundsLike a.unmute b.unmute :=
  { h with tones := h.tones_append rfl rfl }

/-- After a restart both sides are at the start of the same beats. -/
theorem SoundsLike.of_restart {a b : State} (h : SoundsLike a b) :
    SoundsLike (a.setTicksRemaining 0).restartSource (b.setTicksRemaining 0).restartSource :=
  { h with
    ahead := by
      rw [upcoming_of_start rfl rfl, upcoming_of_start rfl rfl]
      exact congrArg repeated h.beats
    tones := h.tones_append rfl rfl }

theorem SoundsLike.of_sampled {a b : State} (h : SoundsLike a b) (raw : Bool) :
    SoundsLike (sampled raw a) (sampled raw b) :=
  { h with
    dbState := congrArg (fun r => r.1) (h.filterStep_eq raw)
    dbCount := congrArg (fun r => r.2.1) (h.filterStep_eq raw)
    tones := h.tones_append rfl rfl }

theorem SoundsLike.of_fired {a b : State} (h : SoundsLike a b) : SoundsLike a.fired b.fired :=
  { h with tones := rfl }

theorem SoundsLike.of_disarm {a b : State} (h : SoundsLike a b) : SoundsLike (disarm a) (disarm b) := by
  have hpol : b.cfg.rearmPolicy = a.cfg.rearmPolicy := by rw [h.cfg]
  obtain ⟨hp, e⟩ | ⟨hp, e⟩ := disarm_cases a <;> rw [e]
  · rw [disarm_of_resume (hpol.trans hp)]
    exact h.of_silence
  · rw [disarm_of_restart (hpol.trans hp)]
    exact h.of_silence.of_restart

theorem toggle_of_press_off {s : State} (h : s.led = false) : toggle .pressed s = (s.setLed true).unmute := by
  simp [toggle, h, arm]

theorem toggle_of_press_on {s : State} (h : s.led = true) :
    toggle .pressed s = (disarm (s.setLed false)).mute := by
  simp [toggle, h]

theorem SoundsLike.of_toggle {a b : State} (h : SoundsLike a b) (ev : ButtonEvent) :
    SoundsLike (toggle ev a) (toggle ev b) := by
  cases ev with
  | nothing => exact h
  | released => exact h
  | pressed =>
    cases hl : a.led with
    | false =>
      rw [toggle_of_press_off hl, toggle_of_press_off (h.led.trans hl)]
      exact (h.of_setLed true).of_unmute
    | true =>
      rw [toggle_of_press_on hl, toggle_of_press_on (h.led.trans hl)]
      exact (h.of_setLed false).of_disarm.of_mute

theorem SoundsLike.of_tickFront {a b : State} (h : SoundsLike a b) (raw : Bool) :
    SoundsLike (tickFront raw a) (tickFront raw b) := by
  have hfront (s : State) : tickFront raw s = toggle (debounceEvent raw s) (sampled raw s) := rfl
  have hevent : debounceEvent raw b = debounceEvent raw a := congrArg (fun r => r.2.2) (h.filterStep_eq raw)
  rw [hfront, hfront, hevent]
  exact (h.of_sampled raw).of_toggle _

/-- ADVANCE plays the same beat on both sides. -/
theorem SoundsLike.of_advance {a b a' b' : State} (h : SoundsLike a b) (hrun : a.halted = false)
    (ha : advance a = .next a') (hb : advance b = .next b') : SoundsLike a' b' := by
  obtain ⟨x, hx, hxhalted, hxtones⟩ := advance_beat ha hrun
  obtain ⟨y, hy, hyhalted, hytones⟩ := advance_beat hb (h.halted.trans hrun)
  obtain ⟨rfl, hahead⟩ := Stream'.cons_injective2 (hy.symm.trans (h.ahead.trans hx))
  obtain ⟨acfg, adb, acount, aled, -, -, aen, -⟩ := advance_frame ha
  obtain ⟨bcfg, bdb, bcount, bled, -, -, ben, -⟩ := advance_frame hb
  exact {
    cfg := by rw [bcfg, acfg]; exact h.cfg
    dbState := by rw [bdb, adb, h.dbState]
    dbCount := by rw [bcount, acount, h.dbCount]
    led := by rw [bled, aled, h.led]
    ticksEnabled := by rw [ben, aen, h.ticksEnabled]
    halted := by rw [hyhalted, hxhalted]
    beats := by rw [bcfg, acfg, h.beats]
    ahead := hahead
    tones := by rw [hytones, hxtones, h.tones] }

theorem SoundsLike.of_tick {a b a' b' : State} {raw : Bool} (h : SoundsLike a b) (hrun : a.halted = false)
    (ha : tick raw a = .next a') (hb : tick raw b = .next b') : SoundsLike a' b' := by
  have hfront := h.of_tickFront raw
  obtain ⟨-, -, -, -, -, -, -, hhalted, -⟩ := tickFront_frame raw a
  cases hl : (tickFront raw a).led with
  | false =>
    rw [tick_of_off hl] at ha
    rw [tick_of_off (hfront.led.trans hl)] at hb
    cases ha
    cases hb
    exact hfront
  | true =>
    rw [tick_of_on hl] at ha
    rw [tick_of_on (hfront.led.trans hl)] at hb
    exact hfront.of_advance (hhalted.trans hrun) ha hb

/-- Blocks that sound alike answer states with the same tone actions at every tick. -/
theorem SoundsLike.tickStates {a b : State} (h : SoundsLike a b) (ha : a.Playable) (hb : b.Playable)
    (raws : List Bool) :
    ∃ as bs, Machine.tickStates raws a = some as ∧ Machine.tickStates raws b = some bs
      ∧ as.map toneActions = bs.map toneActions := by
  induction raws generalizing a b with
  | nil => exact ⟨[], [], rfl, rfl, rfl⟩
  | cons raw raws ih =>
    obtain ⟨a', hanext, haplay, hacase⟩ := fireAndTick_next ha raw
    obtain ⟨b', hbnext, hbplay, hbcase⟩ := fireAndTick_next hb raw
    have hen : b.fired.tickEnabled = a.fired.tickEnabled := by
      rw [fired_tickEnabled, fired_tickEnabled, h.ticksEnabled, h.halted]
    have hlike : SoundsLike a' b' := by
      obtain ⟨haen, hatick⟩ | ⟨haoff, rfl⟩ := hacase <;> obtain ⟨hben, hbtick⟩ | ⟨hboff, rfl⟩ := hbcase
      · obtain ⟨-, -, hrun⟩ := tickEnabled_iff.1 haen
        exact h.of_fired.of_tick hrun hatick hbtick
      · simp [hen, haen] at hboff
      · simp [hen, haoff] at hben
      · exact h.of_fired
    obtain ⟨as, bs, has, hbs, hmap⟩ := ih hlike haplay hbplay
    exact ⟨a' :: as, b' :: bs, tickStates_cons hanext has, tickStates_cons hbnext hbs,
      by rw [List.map_cons, List.map_cons, hmap, hlike.tones]⟩

/-- The beats of a legal command's word. -/
theorem wordBeats_encode {i : Instr} (h : i.legal = true) :
    wordBeats (encode i) = (false, commandActions i) :: List.replicate (ticksOwned (encode i) - 1) quietBeat := by
  obtain ⟨-, hwf⟩ := legal_iff.1 h
  simp [wordBeats, wordActions, legalWord_encode, h, decode_encode hwf]

theorem songBeats_append (xs ys : List Word) : songBeats (xs ++ ys) = songBeats xs ++ songBeats ys :=
  List.flatMap_append

theorem songBeats_waits (n : Nat) : songBeats (waits n) = List.replicate n quietBeat := by
  induction n with
  | zero => rfl
  | succ n ih =>
    have hcons : waits (n + 1) = [encode .wait] ++ waits n := rfl
    rw [hcons, songBeats_append, ih]
    rfl

/-- A command that owns one tick, followed by waits, has the beats of one that owns them all. -/
theorem songBeats_cons_waits {i : Instr} (h : i.legal = true) (hone : ticksOwned (encode i) = 1) (n : Nat) :
    songBeats (encode i :: waits n) = (false, commandActions i) :: List.replicate n quietBeat := by
  have hcons : songBeats (encode i :: waits n) = wordBeats (encode i) ++ songBeats (waits n) := rfl
  rw [hcons, wordBeats_encode h, hone, songBeats_waits]
  rfl

theorem songBeats_singleton (w : Word) : songBeats [w] = wordBeats w := List.append_nil _

/-- A line and its fine form have the same beats. -/
theorem songBeats_fineForm {l : AsmLine} {ws vs : List Word} (hw : assembleLine l = some ws)
    (hv : assembleLine (fineForm l) = some vs) : songBeats vs = songBeats ws := by
  cases l with
  | note p d =>
    obtain ⟨q, e, hq, he, rfl⟩ := assembleLine_note_eq_some.1 hw
    obtain ⟨-, q', hq', rfl⟩ := assembleLine_fnote_eq_some.1 hv
    obtain rfl : q = q' := by simpa [hq] using hq'
    obtain ⟨-, hp⟩ := asmPitch_eq_some.1 hq
    obtain ⟨hn, hd⟩ := asmDur_eq_some.1 he
    rw [songBeats_cons_waits (legal_iff.2 ⟨rfl, wellFormed_beginNote.2 hp⟩) (ticksOwned_beginNote hp),
      songBeats_singleton, wordBeats_encode (legal_iff.2 ⟨rfl, wellFormed_note.2 ⟨hp, hd⟩⟩),
      ticksOwned_note hp hd, hn]
    rfl
  | rest d =>
    obtain ⟨e, he, rfl⟩ := assembleLine_rest_eq_some.1 hw
    obtain ⟨-, rfl⟩ := assembleLine_frest_eq_some.1 hv
    obtain ⟨hn, hd⟩ := asmDur_eq_some.1 he
    rw [songBeats_cons_waits (i := .endNote) rfl ticksOwned_endNote, songBeats_singleton,
      wordBeats_encode (legal_iff.2 ⟨rfl, wellFormed_rest.2 hd⟩), ticksOwned_rest hd, hn]
    rfl
  | _ =>
    obtain rfl := Option.some_inj.1 (hw.symm.trans hv)
    rfl

theorem songBeats_map_fineForm {lines : List AsmLine} {coarse fine : List Word} (hc : assemble lines = some coarse)
    (hf : assemble (lines.map fineForm) = some fine) : songBeats fine = songBeats coarse := by
  induction lines generalizing coarse fine with
  | nil =>
    obtain rfl := Option.some_inj.1 (hc.symm.trans hf)
    rfl
  | cons l ls ih =>
    obtain ⟨xs, ys, hx, hy, rfl⟩ := assemble_cons_eq_some.1 hc
    obtain ⟨us, vs, hu, hv, rfl⟩ := assemble_cons_eq_some.1 hf
    rw [songBeats_append, songBeats_append, songBeats_fineForm hx hu, ih hy hv]

/-- A block under another SONG. -/
def State.withSong (s : State) (song : List Word) : State := { s with cfg := { s.cfg with song := song } }

/-- A typed state at the start of its SONG can play any other SONG that is not empty. -/
theorem playable_withSong {s : State} {song : List Word} (h : s.typed = true) (hpos : s.srcPos = 0) (hne : song ≠ []) :
    (s.withSong song).Playable := by
  obtain ⟨hlegal, hrange⟩ := typed_iff.1 h
  obtain ⟨hthr, -, hperiod⟩ := configLegal_iff.1 hlegal
  have hstart : (s.withSong song).srcPos = 0 := hpos
  constructor
  · exact typed_iff.2 ⟨configLegal_iff.2 ⟨hthr, hne, hperiod⟩, hrange⟩
  · rw [hstart]
    exact List.length_pos_iff.2 hne

/-- Settles O26: both streams have the same beats, and blocks with the same beats to come sound alike tick by tick. -/
theorem fineAndCoarseFormsSoundAlike : Obligations.FineAndCoarseFormsSoundAlike := by
  intro s lines coarse fine raws hc hf hne htyped hpos hticks
  have hbeats := songBeats_map_fineForm hc hf
  have hfine : fine ≠ [] := fun h => hne (songBeats_eq_nil_iff.1 (hbeats ▸ songBeats_eq_nil_iff.2 h))
  have hlike : SoundsLike (s.withSong coarse) (s.withSong fine) :=
    { cfg := rfl, dbState := rfl, dbCount := rfl, led := rfl, ticksEnabled := rfl, halted := rfl, tones := rfl
      beats := hbeats
      ahead := by
        rw [upcoming_of_start (s := s.withSong fine) hpos hticks,
          upcoming_of_start (s := s.withSong coarse) hpos hticks]
        exact congrArg repeated hbeats }
  exact hlike.tickStates (playable_withSong htyped hpos hne) (playable_withSong htyped hpos hfine) raws

end Sys2Proof.Machine
